-- ==== Sys2Proof/Word.lean ====
section
/-! DEFINITION. The word types of the TLCS-46A: 4-bit data words, 8-bit program words, and the two
address widths (spec/00_scope.md R8, spec/20_memory.md R60 and R65). -/

namespace Sys2Proof

/-- A 4-bit data word: a register, a word of data memory, a value on the internal bus (R8, R60). -/
abbrev Nibble := BitVec 4

/-- An 8-bit word of program memory (R65). -/
abbrev Byte := BitVec 8

/-- An 8-bit data-memory address, page number high (R60). -/
abbrev DataAddr := BitVec 8

/-- A 12-bit program-memory address (R65). -/
abbrev ProgAddr := BitVec 12

end Sys2Proof
end

