-- ==== Sys2Proof/Config.lean ====
section
/-! DEFINITION. What the mask of one chip fixes (the configuration record CFG of spec/00_scope.md R2 and
R4 to R7, and the parameters of spec/93_implementation_defined.md section 3), the one configuration
`State.reset` uses, and the free values the manual leaves open. -/

namespace Sys2Proof

/-- R2: the two mass-production parts (the evaluator chip is out of scope, R10). -/
inductive Chip where
  | tcp4620ap
  | tcp4630ap
  deriving DecidableEq, Repr

/-- A run of populated addresses: `size` words from `base` on. -/
structure Region where
  base : Nat
  size : Nat
  deriving DecidableEq, Repr

/-- R5: the six combinations of the OSC to RSTH options; no other combination exists. -/
inductive Typ where
  | typ001
  | typ002
  | typ003
  | typ004
  | typ005
  | typ006
  deriving DecidableEq, Repr

/-- R6, option STD: port 0 is switched by the D flag (`stdD`) or is always an output (`std1`). -/
inductive Std where
  | stdD
  | std1
  deriving DecidableEq, Repr

/-- R6: the five combinations of the options P2 and P4, named by their two hexadecimal digits. -/
inductive PortDir where
  | p2fp4f
  | p2fp43
  | p20p4f
  | p20p43
  | p20p40
  deriving DecidableEq, Repr

/-- R6, option PI5: the input resistor of input port 5. -/
inductive Pi5 where
  | pullUp
  | pullDown
  deriving DecidableEq, Repr

/-- R7, options DEC0 to DEC4: the 8-bit designation of each decode-matrix line. -/
structure DecodeMatrix where
  dec0 : Byte
  dec1 : Byte
  dec2 : Byte
  dec3 : Byte
  dec4 : Byte
  deriving DecidableEq, Repr

/-- R7, options PLA0 to PLAF: the sixteen 8-bit words of the PLA. -/
structure PlaTable where
  pla0 : Byte
  pla1 : Byte
  pla2 : Byte
  pla3 : Byte
  pla4 : Byte
  pla5 : Byte
  pla6 : Byte
  pla7 : Byte
  pla8 : Byte
  pla9 : Byte
  plaA : Byte
  plaB : Byte
  plaC : Byte
  plaD : Byte
  plaE : Byte
  plaF : Byte
  deriving DecidableEq, Repr

/-- R7, option PO6: one 8-bit port fed by a designated PLA (PO60), or the two 4-bit ports 6 and 7 (PO61),
for which no PLA content can be designated (R47, decision D25). -/
inductive Po6 where
  | po60 (pla : PlaTable)
  | po61
  deriving DecidableEq, Repr

/-- R214, the spec's own parameter INT_IN_HOLD (decision D13). -/
inductive IntInHold where
  | dropped
  | latched
  deriving DecidableEq, Repr

/-- Decision D11, the spec's own parameter RTN_EMPTY: what RTN does while the stack flag is 0. -/
inductive RtnEmpty where
  | reload
  | fault
  deriving DecidableEq, Repr

/-- CFG: all that is fixed when a chip is made. The populated memory is a parameter of its own
(R61, R66: the maps are lost, decisions D2 and D3). -/
structure Cfg where
  chip : Chip
  ramMap : List Region
  romMap : List Region
  typ : Typ
  std : Std
  portDir : PortDir
  pi5 : Pi5
  dec : DecodeMatrix
  po6 : Po6
  intInHold : IntInHold
  rtnEmpty : RtnEmpty
  deriving DecidableEq, Repr

/-- The source's example matrix for a five-digit dynamic display (spec/95_test_vectors.md 1.6). -/
def DecodeMatrix.fiveDigit : DecodeMatrix :=
  { dec0 := 0xA9, dec1 := 0xA6, dec2 := 0xA5, dec3 := 0x9A, dec4 := 0x99 }

/-- The source's example matrix for a general purpose port 5 (spec/95_test_vectors.md 1.6). -/
def DecodeMatrix.generalPort : DecodeMatrix :=
  { dec0 := 0x01, dec1 := 0x04, dec2 := 0x10, dec3 := 0x40, dec4 := 0x80 }

/-- The source's example PLA for a segment display (spec/95_test_vectors.md 1.6). -/
def PlaTable.segmentDisplay : PlaTable :=
  { pla0 := 0xFC, pla1 := 0x60, pla2 := 0xDA, pla3 := 0xF2, pla4 := 0x66, pla5 := 0xB6,
    pla6 := 0xBE, pla7 := 0xE4, pla8 := 0xFE, pla9 := 0xF6, plaA := 0xFD, plaB := 0x00,
    plaC := 0x02, plaD := 0xCE, plaE := 0x9E, plaF := 0x8E }

/-- The configuration of `State.reset` only; every meaning reads the state's own configuration.
DESIGN CHOICE (log entry 4, unsafe): the chip, the types and the display contents are per customer; the
values are those of the spec's example programs (spec/95_test_vectors.md Part 3), and the populated
memory is the spec's contiguous default for TCP4620AP (R61, R66, decisions D2 and D3). -/
def Cfg.default : Cfg :=
  { chip := .tcp4620ap
    ramMap := [{ base := 0, size := 96 }]
    romMap := [{ base := 0, size := 2048 }]
    typ := .typ001
    std := .stdD
    portDir := .p2fp4f
    pi5 := .pullUp
    dec := DecodeMatrix.fiveDigit
    po6 := .po60 PlaTable.segmentDisplay
    intInHold := .dropped
    rtnEmpty := .reload }

/-- FREE VALUE (log entry 8): the word that draw number `n` reads from data memory where no memory
is ("regarded as being undefined", R63). -/
opaque Config.undefinedRamWord : Nat → Nibble

/-- FREE VALUE (log entry 9): the word that draw number `n` reads from port 0 while port 0 is an
output (the source is silent, R40, decision D8). -/
opaque Config.port0OutputRead : Nat → Nibble

/-- FREE VALUE (log entry 7): whether draw number `n`, a RESET or INT pulse whose effect "is not
definite", takes its whole effect or none (R202, R240, decision D22). -/
opaque Config.indefinitePulse : Nat → Bool

end Sys2Proof
end

