-- ==== Sys2Proof/Machine/State.lean ====
section
/-! DEFINITION. The state of the machine as plain data (spec/10_state.md R20 to R50), the turns of the
environment (spec/60_exceptions.md R215), the reasons a step can stop, and the state right after reset
(R49, spec/70_reset_and_hazards.md R241). -/

namespace Sys2Proof.Machine

/-- R36: the port registers. `reg5` is 5 bits behind the decode matrix; `reg6` is 8 bits behind the PLA,
and under option PO61 its high nibble is Register 7 (R47). There is no Register 3 (R35). -/
structure PortRegs where
  reg0 : Nibble
  reg1 : Nibble
  reg2 : Nibble
  reg4 : Nibble
  reg5 : BitVec 5
  reg6 : Byte
  deriving DecidableEq, Repr

/-- The levels the outside world puts on the input pins, bit i the level of pin i (R40). They are
sampled, never latched, when LAR or LTR executes (R252). Of ports 0, 2 and 4 only the bits that are
inputs are ever read. -/
structure Pins where
  p0 : Nibble
  p2 : Nibble
  p4 : Nibble
  pi5 : Nibble
  pi60 : Bool
  deriving DecidableEq, Repr

/-- Who moves next (R215). Lengths of pulses count periods of the basic clock CP, of which an instruction
cycle has two (R202, R240; log entry 7). -/
inductive Turn where
  /-- The core takes one step: R215 lines 2 to 4. -/
  | core
  /-- ResetPulse: the RESET pin is low for `low` periods. -/
  | resetPulse (low : Nat)
  /-- IntRequest: the INT pin, high for `high` periods since it was last low, is low for `low` periods. -/
  | intPulse (high low : Nat)
  /-- DivTick: one period of CP, counted by the divider (R221). -/
  | divTick
  /-- PinChange: the input pins take new levels. -/
  | pinChange (pins : Pins)
  deriving DecidableEq, Repr

/-- The whole state: the tuple of spec/10_state.md, the constants ROM and CFG, and the model's own
fields `pins`, `schedule` and `draws`. Holding is a predicate of `cfg` and `st`, not a field (R210). -/
structure State where
  /-- R20: the accumulator AC. -/
  ac : Nibble
  /-- R21: the status register, Z C D H from bit 3 to bit 0. -/
  st : Nibble
  /-- R26: the H register, the page of a data address. -/
  hr : Nibble
  /-- R26: the L register, the address in the page. -/
  lr : Nibble
  /-- R27: the Y register. -/
  yr : Nibble
  /-- R28: the Y register flag EYR. -/
  eyr : Bool
  /-- R30: the program counter. -/
  pc : ProgAddr
  /-- R32: the one entry of the stack, STK. -/
  stk : ProgAddr
  /-- R32: the stack flag FSTK. -/
  fstk : Bool
  /-- R33: the interrupt latch IL. -/
  il : Bool
  /-- R34: the instruction register IR, the last first byte fetched; nothing reads it. -/
  ir : Byte
  /-- R36: the port registers. -/
  ports : PortRegs
  /-- R60: data memory, the written words by address (log entries 2 and 6). -/
  ram : List (Nat × Nibble)
  /-- R48: the 16-stage divider, bit 0 the first stage (R221). -/
  div : BitVec 16
  /-- R65: program memory, the bytes the model was given by address (log entry 3). -/
  rom : List Host.Cell
  /-- R4: the mask options, which no step changes (log entry 5). -/
  cfg : Cfg
  /-- The model's own: the levels on the input pins (log entry 10). -/
  pins : Pins
  /-- The model's own: the turns to come, the next one first; when it is empty the core moves, or, in a
  hold, the clock (log entry 11). -/
  schedule : List Turn
  /-- The model's own: how many free values have been drawn (log entries 7, 8 and 9). -/
  draws : Nat
  deriving DecidableEq, Repr

/-- Why the machine stops. The hardware has no synchronous exception: each of these is a stop of the
model at a point the source leaves undefined (R200). -/
inductive Fault where
  /-- Raised by the fetch: the byte `b` at `addr` is one of the fourteen unassigned first bytes
  (R86, decision D6). Safe. -/
  | illegalOpcode (b : Byte) (addr : ProgAddr)
  /-- Raised by the fetch of a first or second byte at an address without program memory
  (R67, decision D5). Safe. -/
  | romUnpopulated (addr : ProgAddr)
  /-- Raised by the fetch of a populated byte whose mask content the model was not given
  (log entry 3). Safe. -/
  | romNotGiven (addr : ProgAddr)
  /-- Raised by SAM, SSM, CMM, ADM, ACM, SUM, ORM, EOM, ICM and TSM at an address without data memory
  (R64, decision D4). Safe. -/
  | ramWriteUnpopulated (addr : DataAddr)
  /-- Raised by LAR, LTR, SAR, SYR and CLR for a register number without a defined function (R40, R41,
  decisions D7 and D9). Safe. -/
  | undefinedRegister (r : BitVec 3)
  /-- Raised by RTN while FSTK = 0 where the parameter RTN_EMPTY is `fault` (decision D11). Safe. -/
  | stackEmpty
  deriving DecidableEq, Repr

/-- What the model refuses. -/
inductive Refusal where
  /-- Raised by an arm of `exec` whose instruction has no meaning yet. Safe. No arm does so. -/
  | notModelled (mnemonic : String)
  /-- Raised by a step in a state whose configuration is no valid one (R45, decision D17; log
  entry 26). Safe. -/
  | invalidConfiguration
  deriving DecidableEq, Repr

/-- What a step, and the meaning of an instruction, answers. -/
abbrev Result := Host.Outcome State Fault Refusal

/-- R241: all port registers cleared, past the decode matrix and the PLA (R36). -/
def PortRegs.cleared : PortRegs :=
  { reg0 := 0, reg1 := 0, reg2 := 0, reg4 := 0, reg5 := 0, reg6 := 0 }

/-- Pins nothing is connected to: port 5 reads its input resistor (R6), the others low. DESIGN CHOICE
(log entry 10, unsafe). -/
def Pins.unconnected (pi5 : Pi5) : Pins :=
  { p0 := 0
    p2 := 0
    p4 := 0
    pi5 := match pi5 with | .pullUp => 0xF | .pullDown => 0x0
    pi60 := false }

/-- The state right after the initialize operation that follows power-on, under `Cfg.default`. From R49:
`pc`, `fstk`, `il`, bits D and H of `st`, `eyr`, `ports`. DESIGN CHOICE (log entry 1, unsafe), the spec
giving no value: `ac`, bits Z and C of `st`, `hr`, `lr`, `yr`, `stk`, `ir`, `div` at zero. The rest is
the model's: nothing in memory (log entries 2 and 3), no turn to come, no value drawn. -/
def State.reset : State :=
  { ac := 0
    st := 0
    hr := 0
    lr := 0
    yr := 0
    eyr := false
    pc := 0x000
    stk := 0x000
    fstk := true
    il := false
    ir := 0
    ports := PortRegs.cleared
    ram := []
    div := 0
    rom := []
    cfg := Cfg.default
    pins := Pins.unconnected Cfg.default.pi5
    schedule := []
    draws := 0 }

end Sys2Proof.Machine
end

