-- ==== Sys2Proof/Machine/MaskOptions.lean ====
section
/-! DEFINITION. What the mask options mean: the tables of spec/00_scope.md R2, R5 and R6, the decode
matrix and the PLA of spec/10_state.md R44 to R47, the populated memory of spec/20_memory.md R61 and
R66, and which configurations are valid. -/

namespace Sys2Proof.Machine

/-- R2: words of data memory on the part. -/
def ramCapacity : Chip → Nat
  | .tcp4620ap => 96
  | .tcp4630ap => 160

/-- R2: bytes of program memory on the part. -/
def romCapacity : Chip → Nat
  | .tcp4620ap => 2048
  | .tcp4630ap => 3072

/-- Whether an address lies in a region. -/
def inRegion (a : Nat) (r : Region) : Bool := decide (r.base ≤ a) && decide (a < r.base + r.size)

/-- R61: `a ∈ RAM_VALID`. -/
def ramPopulated (cfg : Cfg) (a : DataAddr) : Bool := cfg.ramMap.any (inRegion a.toNat)

/-- R66: `a ∈ ROM_VALID`. -/
def romPopulated (cfg : Cfg) (a : ProgAddr) : Bool := cfg.romMap.any (inRegion a.toNat)

/-- R5, option HOLD: the types whose H flag controls the hold operation (HOLDH). -/
def holdByHFlag : Typ → Bool
  | .typ001 | .typ002 | .typ003 => true
  | .typ004 | .typ005 | .typ006 => false

/-- R6, option P2: one bit for each pin of port 2, 1 where it is an output. -/
def p2Outputs : PortDir → Nibble
  | .p2fp4f | .p2fp43 => 0xF
  | .p20p4f | .p20p43 | .p20p40 => 0x0

/-- R6, option P4: one bit for each pin of port 4, 1 where it is an output. -/
def p4Outputs : PortDir → Nibble
  | .p2fp4f | .p20p4f => 0xF
  | .p2fp43 | .p20p43 => 0x3
  | .p20p40 => 0x0

/-- R44: the product term of one decode-matrix line for the written datum `d`; bit `2j` of the
designation selects the literal `dj`, bit `2j + 1` its complement (R45). -/
def decodeLine (b : Byte) (d : Nibble) : Bool :=
  (List.range 4).all fun j =>
    (!b.getLsbD (2 * j) || d.getLsbD j) && (!b.getLsbD (2 * j + 1) || !d.getLsbD j)

/-- R41, R44: the five bits that a write of `d` leaves in Register 5, line i in bit i. -/
def decodeImage (m : DecodeMatrix) (d : Nibble) : BitVec 5 :=
  BitVec.ofBool (decodeLine m.dec4 d) ++ BitVec.ofBool (decodeLine m.dec3 d) ++
    BitVec.ofBool (decodeLine m.dec2 d) ++ BitVec.ofBool (decodeLine m.dec1 d) ++
    BitVec.ofBool (decodeLine m.dec0 d)

/-- R46: the word of a designated PLA at the address `d`. -/
def plaTableWord (t : PlaTable) (d : Nibble) : Byte :=
  match d.toNat with
  | 0x0 => t.pla0
  | 0x1 => t.pla1
  | 0x2 => t.pla2
  | 0x3 => t.pla3
  | 0x4 => t.pla4
  | 0x5 => t.pla5
  | 0x6 => t.pla6
  | 0x7 => t.pla7
  | 0x8 => t.pla8
  | 0x9 => t.pla9
  | 0xA => t.plaA
  | 0xB => t.plaB
  | 0xC => t.plaC
  | 0xD => t.plaD
  | 0xE => t.plaE
  | _ => t.plaF

/-- `CFG.PLA[d]`: under PO61 the content is fixed to `d ∘ d` (R7, R47, decision D25). -/
def plaWord (po6 : Po6) (d : Nibble) : Byte :=
  match po6 with
  | .po60 t => plaTableWord t d
  | .po61 => d ++ d

/-- R45: a designation selects no literal together with its complement. -/
def validLine (b : Byte) : Bool :=
  (List.range 4).all fun j => !(b.getLsbD (2 * j) && b.getLsbD (2 * j + 1))

/-- Regions in rising order, apart from each other and below `limit`. -/
def regionsRise (limit : Nat) : Nat → List Region → Bool
  | _, [] => true
  | from_, r :: rs =>
    decide (from_ ≤ r.base) && decide (r.base + r.size ≤ limit) &&
      regionsRise limit (r.base + r.size) rs

/-- How many addresses the regions hold, if they rise. -/
def regionsSize (rs : List Region) : Nat := (rs.map Region.size).sum

/-- R61: the data memory has the part's capacity, within 256 words, and page 0 is populated. -/
def validRamMap (cfg : Cfg) : Bool :=
  regionsRise 256 0 cfg.ramMap && regionsSize cfg.ramMap == ramCapacity cfg.chip &&
    (List.range 16).all fun a => cfg.ramMap.any (inRegion a)

/-- R66: the program memory has the part's capacity, within 4096 bytes, and the addresses 0, 2 and 4
are populated. -/
def validRomMap (cfg : Cfg) : Bool :=
  regionsRise 4096 0 cfg.romMap && regionsSize cfg.romMap == romCapacity cfg.chip &&
    [0, 2, 4].all fun a => cfg.romMap.any (inRegion a)

/-- R45, decision D17: the decode matrix is a valid designation. -/
def validMatrix (m : DecodeMatrix) : Bool :=
  [m.dec0, m.dec1, m.dec2, m.dec3, m.dec4].all validLine

/-- The configurations a machine can have; a step refuses any other (log entry 26). -/
def validCfg (cfg : Cfg) : Bool :=
  validRamMap cfg && validRomMap cfg && validMatrix cfg.dec

end Sys2Proof.Machine
end

