-- ==== Sys2Proof/Machine/Memory.lean ====
section
/-! DEFINITION. Memory as a list of cells in one canonical form (spec/20_memory.md R60, R63 to R67):
addresses strictly rising, and no cell of data memory that holds what an unlisted word reads as. -/

namespace Sys2Proof.Machine

/-- The content of the first cell at an address, if one is listed. -/
def lookupCell {w : Nat} : List (Nat × BitVec w) → Nat → Option (BitVec w)
  | [], _ => none
  | (b, v) :: m, a => if a = b then some v else lookupCell m a

/-- The list with the cell `(a, v)` in its place, instead of one that is there. -/
def insertCell {w : Nat} : List (Nat × BitVec w) → Nat → BitVec w → List (Nat × BitVec w)
  | [], a, v => [(a, v)]
  | (b, u) :: m, a, v =>
    if a < b then (a, v) :: (b, u) :: m
    else if a = b then (a, v) :: m
    else (b, u) :: insertCell m a v

/-- The list without any cell at the address `a`. -/
def removeCell {w : Nat} (m : List (Nat × BitVec w)) (a : Nat) : List (Nat × BitVec w) :=
  m.filter fun c => c.1 != a

/-- Addresses strictly rising from `low` on. -/
def cellsRise {w : Nat} : Nat → List (Nat × BitVec w) → Bool
  | _, [] => true
  | low, (b, _) :: m => decide (low ≤ b) && cellsRise (b + 1) m

/-- What a populated word of data memory that nothing has written reads as. DESIGN CHOICE (log
entry 2, unsafe): the spec gives no power-on content (R49). -/
def unwrittenWord : Nibble := 0

/-- The word of data memory at an address. -/
def Memory.read (m : List (Nat × Nibble)) (a : DataAddr) : Nibble :=
  (lookupCell m a.toNat).getD unwrittenWord

/-- Data memory with the word at one address changed; writing what an unlisted word reads as removes
the cell. -/
def Memory.write (m : List (Nat × Nibble)) (a : DataAddr) (v : Nibble) : List (Nat × Nibble) :=
  if v = unwrittenWord then removeCell m a.toNat else insertCell m a.toNat v

/-- The canonical form of data memory: addresses strictly rising, each an 8-bit address, and no cell
that holds what an unlisted word reads as. -/
def Memory.wf (m : List (Nat × Nibble)) : Bool :=
  cellsRise 0 m && m.all fun c => decide (c.1 < 256) && c.2 != unwrittenWord

/-- The byte of program memory at an address, `none` where the model was given none (log entry 3). -/
def Rom.read (m : List Host.Cell) (a : ProgAddr) : Option Byte := lookupCell m a.toNat

/-- Program memory with one byte given; no instruction does this (R65), only the placing of a program. -/
def Rom.write (m : List Host.Cell) (a : ProgAddr) (b : Byte) : List Host.Cell :=
  insertCell m a.toNat b

/-- The canonical form of program memory: addresses strictly rising, each a 12-bit address. -/
def Rom.wf (m : List Host.Cell) : Bool :=
  cellsRise 0 m && m.all fun c => decide (c.1 < 4096)

end Sys2Proof.Machine
end

