-- ==== Sys2Proof/Machine/Ops.lean ====
section
/-! DEFINITION. The named operations over registers, stack and memory that the meanings share, the
acceptance of an interrupt (spec/60_exceptions.md R204) with the return from one beside it
(spec/44_subroutine_misc.md R187), the hold (R210) and the initialize operation
(spec/70_reset_and_hazards.md R241). -/

namespace Sys2Proof.Machine

/-! ### One register at a time -/

def State.setAc (s : State) (v : Nibble) : State := { s with ac := v }

def State.setSt (s : State) (v : Nibble) : State := { s with st := v }

def State.setHr (s : State) (v : Nibble) : State := { s with hr := v }

def State.setLr (s : State) (v : Nibble) : State := { s with lr := v }

def State.setYr (s : State) (v : Nibble) : State := { s with yr := v }

def State.setEyr (s : State) (b : Bool) : State := { s with eyr := b }

def State.setPc (s : State) (a : ProgAddr) : State := { s with pc := a }

def State.setStk (s : State) (a : ProgAddr) : State := { s with stk := a }

def State.setFstk (s : State) (b : Bool) : State := { s with fstk := b }

def State.setIl (s : State) (b : Bool) : State := { s with il := b }

def State.setIr (s : State) (b : Byte) : State := { s with ir := b }

def State.setPorts (s : State) (p : PortRegs) : State := { s with ports := p }

def State.setRam (s : State) (m : List (Nat × Nibble)) : State := { s with ram := m }

def State.setDiv (s : State) (d : BitVec 16) : State := { s with div := d }

def State.setRom (s : State) (m : List Host.Cell) : State := { s with rom := m }

def State.setPins (s : State) (p : Pins) : State := { s with pins := p }

def State.setSchedule (s : State) (l : List Turn) : State := { s with schedule := l }

def State.setDraws (s : State) (n : Nat) : State := { s with draws := n }

/-! ### The flags of the status register (R21) -/

/-- The zero flag, `ST[3]` (R22). -/
def State.zFlag (s : State) : Bool := s.st.getLsbD 3

/-- The carry flag, `ST[2]` (R23). -/
def State.cFlag (s : State) : Bool := s.st.getLsbD 2

/-- The direction flag, `ST[1]` (R24). -/
def State.dFlag (s : State) : Bool := s.st.getLsbD 1

/-- The hold flag, `ST[0]` (R25). -/
def State.hFlag (s : State) : Bool := s.st.getLsbD 0

/-! ### Hold -/

/-- R210: the machine is holding where H controls the hold (HOLDH) and H is 1; under HOLD0 it never
is (R213). -/
def State.holding (s : State) : Bool := holdByHFlag s.cfg.typ && s.hFlag

/-- R210, R215 line 4: where H is now 1 under HOLDH the hold begins and discards a waiting request. -/
def State.enterHold (s : State) : State := if s.holding then s.setIl false else s

/-- LSM, SBS, CBS and IBS write the whole status register or a bit of it, and the flags act at once:
D through `port0Output`, H through the hold (R169). -/
def State.writeStatus (s : State) (v : Nibble) : State := (s.setSt v).enterHold

/-- R212: hardware resets H, and execution goes on at PC. Nothing else changes. -/
def State.releaseHold (s : State) : State := s.setSt (s.st &&& 0b1110#4)

/-! ### The stack, the interrupt and the return -/

/-- R32: PC goes to the one stack entry, over what it held (R186 (b), decision D10), and FSTK is set. -/
def State.pushPc (s : State) : State := (s.setStk s.pc).setFstk true

/-- R187: PC comes back from the stack entry, which keeps its value (decision D11), and FSTK is reset. -/
def State.popPc (s : State) : State := (s.setPc s.stk).setFstk false

/-- R203: EYR = 0, FSTK = 0 and no hold. -/
def State.intEnabled (s : State) : Bool := !s.eyr && !s.fstk && !s.holding

/-- R204: the entry address of the interrupt service routine (R68). -/
def interruptEntry : ProgAddr := 0x002

/-- R204: taking the interrupt. PC to the stack, FSTK set, PC to address 2, IL cleared; nothing else
changes (decision D31). -/
def State.acceptInterrupt (s : State) : State := (s.pushPc.setPc interruptEntry).setIl false

/-- R202, R214: a request sets IL; during a hold the parameter INT_IN_HOLD says whether it is kept. -/
def State.requestInterrupt (s : State) : State :=
  if s.holding then
    match s.cfg.intInHold with
    | .dropped => s
    | .latched => s.setIl true
  else s.setIl true

/-! ### The initialize operation -/

/-- R241, R242: H and D reset, IL reset, port registers cleared, FSTK set, PC to address 0, EYR reset;
every other register and the data memory keep what they hold. -/
def State.initialize (s : State) : State :=
  (((((s.setSt (s.st &&& 0b1100#4)).setIl false).setPorts PortRegs.cleared).setFstk true).setPc
    0x000).setEyr false

/-! ### Data memory -/

/-- One more free value has been drawn. -/
def State.countDraw (s : State) : State := s.setDraws (s.draws + 1)

/-- R63: `MemRead`. A populated word gives its content; elsewhere the read gives a free value, a fresh
one each time (decision D4, log entry 8). -/
def State.memRead (s : State) (a : DataAddr) : Nibble × State :=
  if ramPopulated s.cfg a then (Memory.read s.ram a, s)
  else (Config.undefinedRamWord s.draws, s.countDraw)

/-- R64: `MemWrite`. A populated word takes the value; elsewhere the model stops (decision D4). -/
def State.memWrite (s : State) (a : DataAddr) (v : Nibble) : Result :=
  if ramPopulated s.cfg a then .next (s.setRam (Memory.write s.ram a v))
  else .fault (.ramWriteUnpopulated a)

end Sys2Proof.Machine
end

