-- ==== Sys2Proof/Machine/Flags.lean ====
section
/-! DEFINITION. The arithmetic of the ALU and every flag computation (spec/41_operation.md R130 to R132,
spec/10_state.md R22 and R23), and the single-bit operations (spec/42_bit_manipulation.md R160). -/

namespace Sys2Proof.Machine

/-- R130: the 4-bit sum and the carry out of `a + b + cin`. -/
def addCarry (a b : Nibble) (cin : Bool) : Nibble × Bool :=
  (BitVec.ofNat 4 (a.toNat + b.toNat + cin.toNat), decide (16 ≤ a.toNat + b.toNat + cin.toNat))

/-- R131: the 4-bit difference `m - a` and C, which is 1 where there is no borrow. -/
def subBorrow (m a : Nibble) : Nibble × Bool := (m - a, decide (a.toNat ≤ m.toNat))

/-- R22: `SetZ(v)` sets Z to whether the 4-bit result is zero. -/
def isZero (v : Nibble) : Bool := v == 0#4

/-- R160: the mask `2^G`. -/
def bitMask (g : BitVec 2) : Nibble := 1#4 <<< g.toNat

/-- A word with bit G set (R163, R164). -/
def setBit (v : Nibble) (g : BitVec 2) : Nibble := v ||| bitMask g

/-- A word with bit G cleared (R165, R166). -/
def clearBit (v : Nibble) (g : BitVec 2) : Nibble := v &&& ~~~bitMask g

/-- A word with bit G inverted (R167, R168). -/
def invertBit (v : Nibble) (g : BitVec 2) : Nibble := v ^^^ bitMask g

/-- The AND of R161 and R162, formed for its zero test only. -/
def maskBit (v : Nibble) (g : BitVec 2) : Nibble := v &&& bitMask g

/-- A word with bit G made equal to `b`. -/
def putBit (v : Nibble) (g : BitVec 2) (b : Bool) : Nibble := if b then setBit v g else clearBit v g

/-- Z takes a value; no other flag changes (R22). -/
def State.setZ (s : State) (z : Bool) : State := s.setSt (putBit s.st 3 z)

/-- C takes a value; no other flag changes (R23). -/
def State.setC (s : State) (c : Bool) : State := s.setSt (putBit s.st 2 c)

/-- Z and C from the result of an addition, an increment or a subtraction (R130, R131). -/
def State.setZC (s : State) (r : Nibble × Bool) : State := (s.setC r.2).setZ (isZero r.1)

end Sys2Proof.Machine
end

