-- ==== Sys2Proof/Machine/BitManipulation.lean ====
section
/-! DEFINITION. The 8 bit manipulation instructions (spec/42_bit_manipulation.md R161 to R168). All
reset EYR; none touches memory or a port register. -/

namespace Sys2Proof.Machine

/-- R161: Z says whether bit G of AC is 0; AC is unchanged. -/
def execTba (g : BitVec 2) (s : State) : Result :=
  .next ((s.setZ (isZero (maskBit s.ac g))).setEyr false)

/-- R162: Z says whether bit G of ST, as it was before, is 0. -/
def execTbs (g : BitVec 2) (s : State) : Result :=
  .next ((s.setZ (isZero (maskBit s.st g))).setEyr false)

/-- R163: bit G of AC is set; no flag changes. -/
def execSba (g : BitVec 2) (s : State) : Result := .next ((s.setAc (setBit s.ac g)).setEyr false)

/-- R164: bit G of ST is set, and acts at once (R169). -/
def execSbs (g : BitVec 2) (s : State) : Result :=
  .next ((s.writeStatus (setBit s.st g)).setEyr false)

/-- R165: bit G of AC is cleared; no flag changes. -/
def execCba (g : BitVec 2) (s : State) : Result := .next ((s.setAc (clearBit s.ac g)).setEyr false)

/-- R166: bit G of ST is cleared, and acts at once (R169). -/
def execCbs (g : BitVec 2) (s : State) : Result :=
  .next ((s.writeStatus (clearBit s.st g)).setEyr false)

/-- R167: bit G of AC is inverted; no flag changes. -/
def execIba (g : BitVec 2) (s : State) : Result := .next ((s.setAc (invertBit s.ac g)).setEyr false)

/-- R168: bit G of ST is inverted, and acts at once (R169). -/
def execIbs (g : BitVec 2) (s : State) : Result :=
  .next ((s.writeStatus (invertBit s.st g)).setEyr false)

end Sys2Proof.Machine
end

