-- ==== Sys2Proof/Machine/Branch.lean ====
section
/-! DEFINITION. The 3 branch instructions (spec/43_branch.md R177 to R179) and CAL, RTN, JAC and NOP
(spec/44_subroutine_misc.md R186 to R189). PC is the address of the next instruction when a meaning
is run (R31). All reset EYR, a branch that is not taken too (R176). -/

namespace Sys2Proof.Machine

/-- Control goes to an absolute address where the condition holds. -/
def State.branchIf (s : State) (c : Bool) (ap : ProgAddr) : State :=
  (if c then s.setPc ap else s).setEyr false

/-- R177: `PC <- AP`. -/
def execJmp (ap : ProgAddr) (s : State) : Result := .next (s.branchIf true ap)

/-- R178: `PC <- AP` where Z = 1. -/
def execBcs (ap : ProgAddr) (s : State) : Result := .next (s.branchIf s.zFlag ap)

/-- R179: `PC <- AP` where Z = 0. -/
def execBcc (ap : ProgAddr) (s : State) : Result := .next (s.branchIf (!s.zFlag) ap)

/-- R186: PC to the stack, over what it holds (decision D10), FSTK set, `PC <- AP`. -/
def execCal (ap : ProgAddr) (s : State) : Result := .next ((s.pushPc.setPc ap).setEyr false)

/-- R187: PC from the stack, FSTK reset. With FSTK = 0 the stack is read all the same, unless the
parameter RTN_EMPTY says that the model stops (decision D11). -/
def execRtn (s : State) : Result :=
  if !s.fstk && s.cfg.rtnEmpty == .fault then .fault .stackEmpty else .next (s.popPc.setEyr false)

/-- R188: the high 8 bits of PC + 1, where PC is past the one byte of JAC, with AC below them. -/
def execJac (s : State) : Result :=
  .next ((s.setPc ((s.pc + 1).extractLsb' 4 8 ++ s.ac)).setEyr false)

/-- R189: EYR is reset, and nothing else. -/
def execNop (s : State) : Result := .next (s.setEyr false)

end Sys2Proof.Machine
end

