-- ==== Sys2Proof/Machine/Divider.lean ====
section
/-! DEFINITION. The 16-stage divider and the counter buffer (spec/60_exceptions.md R221 to R224), and the
end of a hold by the trailing edge of C3 (R212). -/

namespace Sys2Proof.Machine

/-- R222: the divider outputs the options can name. -/
inductive Stage where
  | rd7
  | rd9
  | rda
  | rdb
  | rdc
  | rdd
  deriving DecidableEq, Repr

/-- R222: the bit of `DIV` that is the output RDn, bit n + 2 (DEDUCED, log entry 20). -/
def stageBit : Stage → Nat
  | .rd7 => 9
  | .rd9 => 11
  | .rda => 12
  | .rdb => 13
  | .rdc => 14
  | .rdd => 15

/-- R223: the divider output in bit 1 of the counter buffer. -/
def c1Stage : Typ → Stage
  | .typ001 => .rd9
  | .typ002 => .rdb
  | .typ003 => .rdb
  | .typ004 => .rd7
  | .typ005 => .rda
  | .typ006 => .rd7

/-- R223: the divider output in bit 2 of the counter buffer. -/
def c2Stage : Typ → Stage
  | .typ001 => .rda
  | .typ002 => .rdc
  | .typ003 => .rdc
  | .typ004 => .rda
  | .typ005 => .rdb
  | .typ006 => .rda

/-- R223: the divider output in bit 3 of the counter buffer, which also ends a hold. -/
def c3Stage : Typ → Stage
  | .typ001 => .rdb
  | .typ002 => .rdd
  | .typ003 => .rdd
  | .typ004 => .rdd
  | .typ005 => .rdc
  | .typ006 => .rdd

/-- The level of a divider output. -/
def stageLevel (d : BitVec 16) (g : Stage) : Bool := d.getLsbD (stageBit g)

/-- R5, option PDR: only TYP002 resets divider (2) at 12500. -/
def resetsAt12500 : Typ → Bool
  | .typ002 => true
  | .typ001 | .typ003 | .typ004 | .typ005 | .typ006 => false

/-- R221: the count of divider (2), the rear 14 stages. -/
def divider2 (d : BitVec 16) : BitVec 14 := d.extractLsb' 2 14

/-- R221, R224: the divider after one period of CP: a binary count, in which TYP002 returns divider (2) to
0 when it reaches 12500 (DEDUCED, log entry 20). -/
def dividerTick (typ : Typ) (d : BitVec 16) : BitVec 16 :=
  if resetsAt12500 typ && divider2 (d + 1) == 12500#14 then 0#14 ++ (d + 1).extractLsb' 0 2
  else d + 1

/-- C3, bit 3 of the counter buffer. -/
def State.c3 (s : State) : Bool := stageLevel s.div (c3Stage s.cfg.typ)

/-- R223: the counter buffer `C3 ∘ C2 ∘ C1 ∘ PI60`. -/
def State.counterBuffer (s : State) : Nibble :=
  BitVec.ofBool s.c3 ++ BitVec.ofBool (stageLevel s.div (c2Stage s.cfg.typ)) ++
    BitVec.ofBool (stageLevel s.div (c1Stage s.cfg.typ)) ++ BitVec.ofBool s.pins.pi60

/-- R215 DivTick: the divider counts one period of CP, in a hold too (R211); where C3 falls during a
hold, the hold ends (R212). -/
def State.tickDivider (s : State) : State :=
  let t := s.setDiv (dividerTick s.cfg.typ s.div)
  if s.holding && s.c3 && !t.c3 then t.releaseHold else t

end Sys2Proof.Machine
end

