-- ==== Sys2Proof/Machine/Operands.lean ====
section
/-! DEFINITION. The operands: the data-memory address (spec/20_memory.md R62), the ports on a read and on a
write (spec/10_state.md R38 to R41), and the levels the chip drives on its output pins (R37). -/

namespace Sys2Proof.Machine

/-- R62: the effective address, `0 ∘ YR` where EYR = 1 and `HR ∘ LR` where EYR = 0. -/
def State.ea (s : State) : DataAddr := if s.eyr then 0#4 ++ s.yr else s.hr ++ s.lr

/-- R38: port 0 is an output under STD1, and under STDD where D = 1. -/
def State.port0Output (s : State) : Bool :=
  match s.cfg.std with
  | .std1 => true
  | .stdD => s.dFlag

/-- R40: the register in the output bits of a port, the pins in its input bits. -/
def mixBits (outputs reg pins : Nibble) : Nibble := (outputs &&& reg) ||| (~~~outputs &&& pins)

/-- R40: `PortRead(r)`. Reading port 0 while it is an output gives a free value (decision D8, log
entry 9); the register numbers 3 and 7 have nothing to read (decision D7). -/
def State.portRead (s : State) (r : BitVec 3) : Except Fault (Nibble × State) :=
  match r.toNat with
  | 0 => if s.port0Output then .ok (Config.port0OutputRead s.draws, s.countDraw) else .ok (s.pins.p0, s)
  | 1 => .ok (s.ports.reg1, s)
  | 2 => .ok (mixBits (p2Outputs s.cfg.portDir) s.ports.reg2 s.pins.p2, s)
  | 4 => .ok (mixBits (p4Outputs s.cfg.portDir) s.ports.reg4 s.pins.p4, s)
  | 5 => .ok (s.pins.pi5, s)
  | 6 => .ok (s.counterBuffer, s)
  | _ => .error (.undefinedRegister r)

/-- R41: what a write of `v` to register number `r` leaves in the port registers. Under PO60 a write to 6
fills all of Register 6 and a write to 7 has no function (decision D9); under PO61 each fills its own
nibble (R47). Register number 3 does not exist (decision D7). -/
def portWriteRegs (cfg : Cfg) (p : PortRegs) (r : BitVec 3) (v : Nibble) : Except Fault PortRegs :=
  match r.toNat with
  | 0 => .ok { p with reg0 := v }
  | 1 => .ok { p with reg1 := v }
  | 2 => .ok { p with reg2 := v }
  | 4 => .ok { p with reg4 := v }
  | 5 => .ok { p with reg5 := decodeImage cfg.dec v }
  | 6 =>
    match cfg.po6 with
    | .po60 _ => .ok { p with reg6 := plaWord cfg.po6 v }
    | .po61 => .ok { p with reg6 := p.reg6.extractLsb' 4 4 ++ (plaWord cfg.po6 v).extractLsb' 0 4 }
  | 7 =>
    match cfg.po6 with
    | .po60 _ => .error (.undefinedRegister r)
    | .po61 => .ok { p with reg6 := (plaWord cfg.po6 v).extractLsb' 4 4 ++ p.reg6.extractLsb' 0 4 }
  | _ => .error (.undefinedRegister r)

/-- R41: `PortWrite(r, v)`, with EYR reset as SAR, SYR and CLR do after it. -/
def State.portWrite (s : State) (r : BitVec 3) (v : Nibble) : Result :=
  match portWriteRegs s.cfg s.ports r v with
  | .ok p => .next ((s.setPorts p).setEyr false)
  | .error f => .fault f

/-! ### The output pins (R37) -/

/-- The pins the chip can drive. -/
inductive OutputPin where
  | p0 (i : Fin 4)
  | p1 (i : Fin 4)
  | p2 (i : Fin 4)
  | p4 (i : Fin 4)
  | po5 (i : Fin 5)
  | po6 (i : Fin 8)
  deriving DecidableEq, Repr

/-- R37: the level on a pin, `some true` for "H", and `none` where the chip does not drive it. -/
def State.drivenLevel (s : State) : OutputPin → Option Bool
  | .p0 i => if s.port0Output then some (s.ports.reg0.getLsbD i) else none
  | .p1 i => some (s.ports.reg1.getLsbD i)
  | .p2 i => if (p2Outputs s.cfg.portDir).getLsbD i then some (s.ports.reg2.getLsbD i) else none
  | .p4 i => if (p4Outputs s.cfg.portDir).getLsbD i then some (s.ports.reg4.getLsbD i) else none
  | .po5 i => some (s.ports.reg5.getLsbD i)
  | .po6 i => some (s.ports.reg6.getLsbD i)

end Sys2Proof.Machine
end

