-- ==== Sys2Proof/Machine/DataTransfer.lean ====
section
/-! DEFINITION. The 19 data transfer instructions (spec/40_data_transfer.md R101 to R119). Each meaning is
run after the fetch has moved PC past the instruction (R100), and updates EYR as R29 says. -/

namespace Sys2Proof.Machine

/-! ### Shared shapes -/

/-- A value goes to AC, no flag changes, EYR is reset. -/
def State.toAc (s : State) (v : Nibble) : State := (s.setAc v).setEyr false

/-- A value goes to AC, Z says whether it is zero, EYR is reset. -/
def State.toAcTest (s : State) (v : Nibble) : State := ((s.setAc v).setZ (isZero v)).setEyr false

/-- The answer to a port read: `k` says what becomes of the value. -/
def withPort (r : Except Fault (Nibble × State)) (k : Nibble → State → State) : Result :=
  match r with
  | .ok (v, s) => .next (k v s)
  | .error f => .fault f

/-! ### Loads into the accumulator and the status register -/

/-- R101: AC from a port; no flag changes. -/
def execLar (r : BitVec 3) (s : State) : Result := withPort (s.portRead r) fun v t => t.toAc v

/-- R102: AC from a port, and Z. -/
def execLtr (r : BitVec 3) (s : State) : Result := withPort (s.portRead r) fun v t => t.toAcTest v

/-- R103: AC from memory; no flag changes. -/
def execLam (s : State) : Result :=
  let m := s.memRead s.ea
  .next (m.2.toAc m.1)

/-- R104: AC from memory, and Z. -/
def execLtm (s : State) : Result :=
  let m := s.memRead s.ea
  .next (m.2.toAcTest m.1)

/-- R105: all of ST from memory, bit i to bit i (log entry 21); D and H act at once (R169). -/
def execLsm (s : State) : Result :=
  let m := s.memRead s.ea
  .next ((m.2.writeStatus m.1).setEyr false)

/-- R106: AC from the L register. -/
def execLal (s : State) : Result := .next (s.toAc s.lr)

/-- R107: AC from the H register. -/
def execLah (s : State) : Result := .next (s.toAc s.hr)

/-! ### Immediate loads -/

/-- R108: AC from the immediate; Z is not updated, even by 0. -/
def execLai (i : Nibble) (s : State) : Result := .next (s.toAc i)

/-- R109: the L register from the immediate. -/
def execLli (i : Nibble) (s : State) : Result := .next ((s.setLr i).setEyr false)

/-- R110: the H register from the immediate, any page number. -/
def execLhi (i : Nibble) (s : State) : Result := .next ((s.setHr i).setEyr false)

/-- R111: the Y register from the immediate, and EYR is set. -/
def execLyi (i : Nibble) (s : State) : Result := .next ((s.setYr i).setEyr true)

/-! ### Stores -/

/-- R112: AC to a port register, through the decode matrix or the PLA (R41). -/
def execSar (r : BitVec 3) (s : State) : Result := s.portWrite r s.ac

/-- R113: AC to memory; EYR is unchanged. -/
def execSam (s : State) : Result := s.memWrite s.ea s.ac

/-- R114: ST to memory as `Z ∘ C ∘ D ∘ H`; EYR is unchanged. -/
def execSsm (s : State) : Result := s.memWrite s.ea s.st

/-- R115: AC to the L register. -/
def execSal (s : State) : Result := .next ((s.setLr s.ac).setEyr false)

/-- R116: AC to the H register. -/
def execSah (s : State) : Result := .next ((s.setHr s.ac).setEyr false)

/-- R117: AC to the Y register, and EYR is set. -/
def execSay (s : State) : Result := .next ((s.setYr s.ac).setEyr true)

/-- R118: the Y register to a port register. -/
def execSyr (r : BitVec 3) (s : State) : Result := s.portWrite r s.yr

/-- R119: the bus value 0 to a port register, so the image of 0 for 5 to 7 (R41, conflict C18). -/
def execClr (r : BitVec 3) (s : State) : Result := s.portWrite r 0

end Sys2Proof.Machine
end

