-- ==== Sys2Proof/Machine/Operation.lean ====
section
/-! DEFINITION. The 18 operation instructions (spec/41_operation.md R133 to R150). -/

namespace Sys2Proof.Machine

/-! ### Shared shapes -/

/-- An addition, increment or subtraction whose result goes to AC: AC, C, Z, and EYR reset. -/
def State.arithToAc (s : State) (r : Nibble × Bool) : State := ((s.setAc r.1).setZC r).setEyr false

/-- A logical operation whose result goes to AC: AC, Z, and EYR reset; C is unchanged (R132). -/
def State.logicToAc (s : State) (v : Nibble) : State := ((s.setAc v).setZ (isZero v)).setEyr false

/-- `AC <- f(M)` with C and Z, memory unchanged. -/
def accArith (f : Nibble → Nibble × Bool) (s : State) : Result :=
  let m := s.memRead s.ea
  .next (m.2.arithToAc (f m.1))

/-- `M <- f(M)` with C and Z; the address is computed once (R71), AC and EYR are unchanged. -/
def memArith (f : Nibble → Nibble × Bool) (s : State) : Result :=
  let a := s.ea
  let m := s.memRead a
  (m.2.setZC (f m.1)).memWrite a (f m.1).1

/-- `AC <- f(M)` with Z, memory and C unchanged. -/
def accLogic (f : Nibble → Nibble) (s : State) : Result :=
  let m := s.memRead s.ea
  .next (m.2.logicToAc (f m.1))

/-- `M <- f(M)` with Z; C, AC and EYR are unchanged. -/
def memLogic (f : Nibble → Nibble) (s : State) : Result :=
  let a := s.ea
  let m := s.memRead a
  (m.2.setZ (isZero (f m.1))).memWrite a (f m.1)

/-! ### Add -/

/-- R133: `AC <- AC + I`. -/
def execAdi (i : Nibble) (s : State) : Result := .next (s.arithToAc (addCarry s.ac i false))

/-- R134: `AC <- M + AC`. -/
def execAda (s : State) : Result := accArith (fun m => addCarry m s.ac false) s

/-- R135: `M <- M + AC`. -/
def execAdm (s : State) : Result := memArith (fun m => addCarry m s.ac false) s

/-- R136: `AC <- M + AC + C`, C as it was before. -/
def execAca (s : State) : Result := accArith (fun m => addCarry m s.ac s.cFlag) s

/-- R137: `M <- M + AC + C`, C as it was before. -/
def execAcm (s : State) : Result := memArith (fun m => addCarry m s.ac s.cFlag) s

/-! ### Subtract -/

/-- R138: `AC <- M - AC`, C from the AC of before. -/
def execSua (s : State) : Result := accArith (fun m => subBorrow m s.ac) s

/-- R139: `M <- M - AC`. -/
def execSum (s : State) : Result := memArith (fun m => subBorrow m s.ac) s

/-! ### Logical -/

/-- R140: `AC <- M | AC`. -/
def execOra (s : State) : Result := accLogic (fun m => m ||| s.ac) s

/-- R141: `M <- M | AC`. -/
def execOrm (s : State) : Result := memLogic (fun m => m ||| s.ac) s

/-- R142: `AC <- M ^ AC`. -/
def execEoa (s : State) : Result := accLogic (fun m => m ^^^ s.ac) s

/-- R143: `M <- M ^ AC`. -/
def execEom (s : State) : Result := memLogic (fun m => m ^^^ s.ac) s

/-- R144: `AC <- ~AC`; no memory access. -/
def execCma (s : State) : Result := .next (s.logicToAc (~~~s.ac))

/-- R145: `M <- ~AC`; memory is not read. -/
def execCmm (s : State) : Result := (s.setZ (isZero (~~~s.ac))).memWrite s.ea (~~~s.ac)

/-! ### Increment and test -/

/-- R146: `AC <- M + 1`; memory is unchanged. -/
def execIca (s : State) : Result := accArith (fun m => addCarry m 1 false) s

/-- R147: `M <- M + 1`. -/
def execIcm (s : State) : Result := memArith (fun m => addCarry m 1 false) s

/-- R148: `LR <- (LR + 1) mod 16`; no flag changes, HR takes no carry. -/
def execIcl (s : State) : Result := .next ((s.setLr (s.lr + 1)).setEyr false)

/-- R149: `HR <- (HR + 1) mod 16`; no flag changes. -/
def execIch (s : State) : Result := .next ((s.setHr (s.hr + 1)).setEyr false)

/-- R150: `M <- M`, and Z. It counts as a write: EYR is unchanged, and it stops where no memory is. -/
def execTsm (s : State) : Result := memLogic (fun m => m) s

end Sys2Proof.Machine
end

