-- ==== Sys2Proof/Syntax.lean ====
section
/-! DEFINITION. The 52 instructions of the TLCS-46A, one constructor for each row of
spec/opcode_table.json, in the table's order (spec/00_scope.md R3, spec/30_encoding.md R81, R82). -/

namespace Sys2Proof

/-- An instruction. `r` is a port-register number (3 bits), `i` an immediate (4 bits), `g` a bit
number (2 bits), `ap` an absolute program address (12 bits), all unsigned (R82). -/
inductive Instr where
  /- Data transfer (R101 to R119). -/
  | lar (r : BitVec 3)
  | ltr (r : BitVec 3)
  | lam
  | ltm
  | lsm
  | lal
  | lah
  | lai (i : Nibble)
  | lli (i : Nibble)
  | lhi (i : Nibble)
  | lyi (i : Nibble)
  | sar (r : BitVec 3)
  | sam
  | ssm
  | sal
  | sah
  | say
  | syr (r : BitVec 3)
  | clr (r : BitVec 3)
  /- Operation (R133 to R150). -/
  | adi (i : Nibble)
  | ada
  | adm
  | aca
  | acm
  | sua
  | sum
  | ora
  | orm
  | eoa
  | eom
  | cma
  | cmm
  | ica
  | icm
  | icl
  | ich
  | tsm
  /- Bit manipulation (R161 to R168). -/
  | tba (g : BitVec 2)
  | tbs (g : BitVec 2)
  | sba (g : BitVec 2)
  | sbs (g : BitVec 2)
  | cba (g : BitVec 2)
  | cbs (g : BitVec 2)
  | iba (g : BitVec 2)
  | ibs (g : BitVec 2)
  /- Branch (R177 to R179). -/
  | jmp (ap : ProgAddr)
  | bcs (ap : ProgAddr)
  | bcc (ap : ProgAddr)
  /- Subroutine, JAC and NOP (R186 to R189). -/
  | cal (ap : ProgAddr)
  | rtn
  | jac
  | nop
  deriving DecidableEq, Repr

end Sys2Proof
end

