-- ==== Sys2Proof/Machine/Dispatch.lean ====
section
/-! DEFINITION. The meaning of every instruction, one arm for each constructor of `Instr`. -/

namespace Sys2Proof.Machine

def exec (i : Instr) (s : State) : Host.Outcome State Fault Refusal :=
  match i with
  | .lar r => Sys2Proof.Machine.execLar r s
  | .ltr r => Sys2Proof.Machine.execLtr r s
  | .lam => Sys2Proof.Machine.execLam s
  | .ltm => Sys2Proof.Machine.execLtm s
  | .lsm => Sys2Proof.Machine.execLsm s
  | .lal => Sys2Proof.Machine.execLal s
  | .lah => Sys2Proof.Machine.execLah s
  | .lai imm => Sys2Proof.Machine.execLai imm s
  | .lli imm => Sys2Proof.Machine.execLli imm s
  | .lhi imm => Sys2Proof.Machine.execLhi imm s
  | .lyi imm => Sys2Proof.Machine.execLyi imm s
  | .sar r => Sys2Proof.Machine.execSar r s
  | .sam => Sys2Proof.Machine.execSam s
  | .ssm => Sys2Proof.Machine.execSsm s
  | .sal => Sys2Proof.Machine.execSal s
  | .sah => Sys2Proof.Machine.execSah s
  | .say => Sys2Proof.Machine.execSay s
  | .syr r => Sys2Proof.Machine.execSyr r s
  | .clr r => Sys2Proof.Machine.execClr r s
  | .adi imm => Sys2Proof.Machine.execAdi imm s
  | .ada => Sys2Proof.Machine.execAda s
  | .adm => Sys2Proof.Machine.execAdm s
  | .aca => Sys2Proof.Machine.execAca s
  | .acm => Sys2Proof.Machine.execAcm s
  | .sua => Sys2Proof.Machine.execSua s
  | .sum => Sys2Proof.Machine.execSum s
  | .ora => Sys2Proof.Machine.execOra s
  | .orm => Sys2Proof.Machine.execOrm s
  | .eoa => Sys2Proof.Machine.execEoa s
  | .eom => Sys2Proof.Machine.execEom s
  | .cma => Sys2Proof.Machine.execCma s
  | .cmm => Sys2Proof.Machine.execCmm s
  | .ica => Sys2Proof.Machine.execIca s
  | .icm => Sys2Proof.Machine.execIcm s
  | .icl => Sys2Proof.Machine.execIcl s
  | .ich => Sys2Proof.Machine.execIch s
  | .tsm => Sys2Proof.Machine.execTsm s
  | .tba g => Sys2Proof.Machine.execTba g s
  | .tbs g => Sys2Proof.Machine.execTbs g s
  | .sba g => Sys2Proof.Machine.execSba g s
  | .sbs g => Sys2Proof.Machine.execSbs g s
  | .cba g => Sys2Proof.Machine.execCba g s
  | .cbs g => Sys2Proof.Machine.execCbs g s
  | .iba g => Sys2Proof.Machine.execIba g s
  | .ibs g => Sys2Proof.Machine.execIbs g s
  | .jmp ap => Sys2Proof.Machine.execJmp ap s
  | .bcs ap => Sys2Proof.Machine.execBcs ap s
  | .bcc ap => Sys2Proof.Machine.execBcc ap s
  | .cal ap => Sys2Proof.Machine.execCal ap s
  | .rtn => Sys2Proof.Machine.execRtn s
  | .jac => Sys2Proof.Machine.execJac s
  | .nop => Sys2Proof.Machine.execNop s

end Sys2Proof.Machine
end

