-- ==== Sys2Proof/Machine/Events.lean ====
section
/-! DEFINITION. The turns of the environment (spec/60_exceptions.md R202, R212, R214, R215;
spec/70_reset_and_hazards.md R240). -/

namespace Sys2Proof.Machine

/-- What a pulse on RESET or INT does (R202, R240). -/
inductive PulseEffect where
  | ignored
  | indefinite
  | definite
  deriving DecidableEq, Repr

/-- Two instruction cycles in periods of CP: "1 cycle corresponds to 2 period of internal basic clock". -/
def twoCycles : Nat := 4

/-- R240: a low time of two cycles or more resets, a shorter one may or may not. -/
def resetPulseEffect (low : Nat) : PulseEffect :=
  if low = 0 then .ignored else if twoCycles ≤ low then .definite else .indefinite

/-- R202: INT falls after `high` periods and stays low for `low`. Without a high time nothing is set
again; two cycles or more of both set the latch; anything else may or may not. -/
def intPulseEffect (high low : Nat) : PulseEffect :=
  if high = 0 ∨ low = 0 then .ignored
  else if twoCycles ≤ high ∧ twoCycles ≤ low then .definite
  else .indefinite

/-- A pulse has its whole effect or none; which of the two an indefinite one has is a free value
(decision D22, log entry 7). -/
def State.pulse (s : State) (e : PulseEffect) (f : State → State) : State :=
  match e with
  | .ignored => s
  | .definite => f s
  | .indefinite => if Config.indefinitePulse s.draws then f s.countDraw else s.countDraw

/-- R215, line 1: one event of the environment. `core` is no event: it leaves the state alone here. -/
def State.applyTurn (s : State) : Turn → State
  | .core => s
  | .resetPulse low => s.pulse (resetPulseEffect low) State.initialize
  | .intPulse high low => s.pulse (intPulseEffect high low) State.requestInterrupt
  | .divTick => s.tickDivider
  | .pinChange p => s.setPins p

end Sys2Proof.Machine
end

