-- ==== Sys2Proof/WellFormed.lean ====
section
/-! DEFINITION. Which terms of `Instr` stand for an instruction of the machine. Every operand field
has exactly the width of its encoding, so the one check left is SYR's range (spec/30_encoding.md R82). -/

namespace Sys2Proof

/-- R82: `0 ≤ R ≤ 7` for LAR, LTR, SAR and CLR, but `4 ≤ R ≤ 7` for SYR, whose encodings with R < 4
are unassigned (R86). -/
def Instr.wellFormed : Instr → Bool
  | .syr r => decide (4 ≤ r.toNat)
  | .lar _ | .ltr _ | .lam | .ltm | .lsm | .lal | .lah | .lai _ | .lli _ | .lhi _ | .lyi _
  | .sar _ | .sam | .ssm | .sal | .sah | .say | .clr _ => true
  | .adi _ | .ada | .adm | .aca | .acm | .sua | .sum | .ora | .orm | .eoa | .eom | .cma | .cmm
  | .ica | .icm | .icl | .ich | .tsm => true
  | .tba _ | .tbs _ | .sba _ | .sbs _ | .cba _ | .cbs _ | .iba _ | .ibs _ => true
  | .jmp _ | .bcs _ | .bcc _ | .cal _ | .rtn | .jac | .nop => true

end Sys2Proof
end

