-- ==== Sys2Proof/Decode.lean ====
section
/-! DEFINITION. Decoding and encoding (spec/30_encoding.md): the opcode map of R85 by its rows and columns, the
same map as masks and patterns, the total decoder, and the encoder. -/

namespace Sys2Proof

/-- Why a list of bytes is no instruction. -/
inductive DecodeError where
  /-- R86: the first byte is one of the fourteen unassigned values. Safe: the machine stops. -/
  | unassigned (b : Byte)
  /-- R80: the first byte asks for a second one and none is given. Safe: nothing is decoded. -/
  | secondByteMissing (b : Byte)
  /-- There is no byte at all. Safe: nothing is decoded. -/
  | noByte
  deriving DecidableEq, Repr

/-- The four two-byte instructions (R80, format FA). -/
inductive AddrOp where
  | bcs
  | bcc
  | jmp
  | cal
  deriving DecidableEq, Repr

/-- The instruction of an FA opcode and its 12-bit address. -/
def AddrOp.instr : AddrOp → ProgAddr → Instr
  | .bcs, ap => .bcs ap
  | .bcc, ap => .bcc ap
  | .jmp, ap => .jmp ap
  | .cal, ap => .cal ap

/-- What the first byte alone decides (R80, R85). -/
inductive FirstByte where
  | one (i : Instr)
  | two (op : AddrOp)
  | unassigned
  deriving DecidableEq, Repr

/-- R85, row 0 of the instruction map. -/
def mapRow0 (l : Nat) : FirstByte :=
  match l with
  | 0x0 => .one .nop
  | 0x1 => .one .rtn
  | 0x2 => .one .icl
  | 0x3 => .one .ich
  | 0x4 => .one .lam
  | 0x5 => .one .lsm
  | 0x6 => .one .lal
  | 0x7 => .one .lah
  | 0x8 => .one .say
  | 0x9 => .one .jac
  | 0xC => .one .sam
  | 0xD => .one .ssm
  | 0xE => .one .sal
  | 0xF => .one .sah
  | _ => .unassigned

/-- R85, row 8 of the instruction map. -/
def mapRow8 (l : Nat) : FirstByte :=
  match l with
  | 0x0 => .one .ada
  | 0x1 => .one .aca
  | 0x2 => .one .sua
  | 0x3 => .one .ica
  | 0x4 => .one .ora
  | 0x5 => .one .eoa
  | 0x6 => .one .cma
  | 0x7 => .one .ltm
  | 0x8 => .one .adm
  | 0x9 => .one .acm
  | 0xA => .one .sum
  | 0xB => .one .icm
  | 0xC => .one .orm
  | 0xD => .one .eom
  | 0xE => .one .cmm
  | _ => .one .tsm

/-- R85, rows 1 and 2: bit 3 of the column chooses between two FR instructions, bits 2..0 are R. -/
def mapRowR (below above : BitVec 3 → Instr) (b : Byte) : FirstByte :=
  if b.getLsbD 3 then .one (above (b.extractLsb' 0 3)) else .one (below (b.extractLsb' 0 3))

/-- R85, rows A and B: bits 3..2 of the column are the action (00 test, 01 set, 10 clear, 11 invert),
bits 1..0 are G (R160). -/
def mapRowG (test set clear invert : BitVec 2 → Instr) (b : Byte) : FirstByte :=
  match (b.extractLsb' 2 2).toNat with
  | 0 => .one (test (b.extractLsb' 0 2))
  | 1 => .one (set (b.extractLsb' 0 2))
  | 2 => .one (clear (b.extractLsb' 0 2))
  | _ => .one (invert (b.extractLsb' 0 2))

/-- R85: the complete map of the first byte, row by row. In row 3 only columns 4 to 7 are assigned
(SYR, R86). -/
def classify (b : Byte) : FirstByte :=
  match (b.extractLsb' 4 4).toNat with
  | 0x0 => mapRow0 (b.extractLsb' 0 4).toNat
  | 0x1 => mapRowR .lar .ltr b
  | 0x2 => mapRowR .clr .sar b
  | 0x3 => if b.extractLsb' 2 2 = 0b01#2 then .one (.syr (b.extractLsb' 0 3)) else .unassigned
  | 0x4 => .one (.lai (b.extractLsb' 0 4))
  | 0x5 => .one (.lyi (b.extractLsb' 0 4))
  | 0x6 => .one (.lli (b.extractLsb' 0 4))
  | 0x7 => .one (.lhi (b.extractLsb' 0 4))
  | 0x8 => mapRow8 (b.extractLsb' 0 4).toNat
  | 0x9 => .one (.adi (b.extractLsb' 0 4))
  | 0xA => mapRowG .tba .sba .cba .iba b
  | 0xB => mapRowG .tbs .sbs .cbs .ibs b
  | 0xC => .two .bcs
  | 0xD => .two .bcc
  | 0xE => .two .jmp
  | _ => .two .cal

/-- R80: an instruction has two bytes exactly when bits 7..6 of its first byte are `11`. -/
def isTwoByte (b : Byte) : Bool := b.extractLsb' 6 2 == 0b11#2

/-- R83: `AP = b1[7:4] ∘ b1[3:0] ∘ b0[3:0]`. The opcode byte is the one at the lower address
(DEDUCED, log entry 17). -/
def assembleAp (b0 b1 : Byte) : ProgAddr := b1 ++ b0.extractLsb' 0 4

/-- R84: the instruction that a list of bytes begins with, lowest address first, and the bytes after it. -/
def decode : List Byte → Except DecodeError (Instr × List Byte)
  | [] => .error .noByte
  | b0 :: rest =>
    match classify b0 with
    | .one i => .ok (i, rest)
    | .unassigned => .error (.unassigned b0)
    | .two op =>
      match rest with
      | [] => .error (.secondByteMissing b0)
      | b1 :: rest' => .ok (op.instr (assembleAp b0 b1), rest')

/-- R83: the two bytes of an FA instruction, opcode nibble and AP_L first, then AP_H and AP_M. -/
def encodeAddr (op : Nibble) (ap : ProgAddr) : List Byte :=
  [op ++ ap.extractLsb' 0 4, ap.extractLsb' 4 8]

/-- The bytes of an instruction, lowest address first, from the binary column of R85. An ill-formed
SYR has no encoding; its bytes are those of its low two register bits. -/
def encode : Instr → List Byte
  | .lar r => [0b00010#5 ++ r]
  | .ltr r => [0b00011#5 ++ r]
  | .lam => [0b00000100#8]
  | .ltm => [0b10000111#8]
  | .lsm => [0b00000101#8]
  | .lal => [0b00000110#8]
  | .lah => [0b00000111#8]
  | .lai i => [0b0100#4 ++ i]
  | .lli i => [0b0110#4 ++ i]
  | .lhi i => [0b0111#4 ++ i]
  | .lyi i => [0b0101#4 ++ i]
  | .sar r => [0b00101#5 ++ r]
  | .sam => [0b00001100#8]
  | .ssm => [0b00001101#8]
  | .sal => [0b00001110#8]
  | .sah => [0b00001111#8]
  | .say => [0b00001000#8]
  | .syr r => [0b001101#6 ++ r.extractLsb' 0 2]
  | .clr r => [0b00100#5 ++ r]
  | .adi i => [0b1001#4 ++ i]
  | .ada => [0b10000000#8]
  | .adm => [0b10001000#8]
  | .aca => [0b10000001#8]
  | .acm => [0b10001001#8]
  | .sua => [0b10000010#8]
  | .sum => [0b10001010#8]
  | .ora => [0b10000100#8]
  | .orm => [0b10001100#8]
  | .eoa => [0b10000101#8]
  | .eom => [0b10001101#8]
  | .cma => [0b10000110#8]
  | .cmm => [0b10001110#8]
  | .ica => [0b10000011#8]
  | .icm => [0b10001011#8]
  | .icl => [0b00000010#8]
  | .ich => [0b00000011#8]
  | .tsm => [0b10001111#8]
  | .tba g => [0b101000#6 ++ g]
  | .tbs g => [0b101100#6 ++ g]
  | .sba g => [0b101001#6 ++ g]
  | .sbs g => [0b101101#6 ++ g]
  | .cba g => [0b101010#6 ++ g]
  | .cbs g => [0b101110#6 ++ g]
  | .iba g => [0b101011#6 ++ g]
  | .ibs g => [0b101111#6 ++ g]
  | .jmp ap => encodeAddr 0b1110#4 ap
  | .bcs ap => encodeAddr 0b1100#4 ap
  | .bcc ap => encodeAddr 0b1101#4 ap
  | .cal ap => encodeAddr 0b1111#4 ap
  | .rtn => [0b00000001#8]
  | .jac => [0b00001001#8]
  | .nop => [0b00000000#8]

/-- R80: how many bytes an instruction has. -/
def Instr.length : Instr → Nat
  | .jmp _ | .bcs _ | .bcc _ | .cal _ => 2
  | .lar _ | .ltr _ | .lam | .ltm | .lsm | .lal | .lah | .lai _ | .lli _ | .lhi _ | .lyi _
  | .sar _ | .sam | .ssm | .sal | .sah | .say | .syr _ | .clr _ | .adi _ | .ada | .adm | .aca
  | .acm | .sua | .sum | .ora | .orm | .eoa | .eom | .cma | .cmm | .ica | .icm | .icl | .ich
  | .tsm | .tba _ | .tbs _ | .sba _ | .sbs _ | .cba _ | .cbs _ | .iba _ | .ibs _ | .rtn | .jac
  | .nop => 1

/-- The assembler mnemonic of an instruction (R89). -/
def Instr.mnemonic : Instr → String
  | .lar _ => "LAR"
  | .ltr _ => "LTR"
  | .lam => "LAM"
  | .ltm => "LTM"
  | .lsm => "LSM"
  | .lal => "LAL"
  | .lah => "LAH"
  | .lai _ => "LAI"
  | .lli _ => "LLI"
  | .lhi _ => "LHI"
  | .lyi _ => "LYI"
  | .sar _ => "SAR"
  | .sam => "SAM"
  | .ssm => "SSM"
  | .sal => "SAL"
  | .sah => "SAH"
  | .say => "SAY"
  | .syr _ => "SYR"
  | .clr _ => "CLR"
  | .adi _ => "ADI"
  | .ada => "ADA"
  | .adm => "ADM"
  | .aca => "ACA"
  | .acm => "ACM"
  | .sua => "SUA"
  | .sum => "SUM"
  | .ora => "ORA"
  | .orm => "ORM"
  | .eoa => "EOA"
  | .eom => "EOM"
  | .cma => "CMA"
  | .cmm => "CMM"
  | .ica => "ICA"
  | .icm => "ICM"
  | .icl => "ICL"
  | .ich => "ICH"
  | .tsm => "TSM"
  | .tba _ => "TBA"
  | .tbs _ => "TBS"
  | .sba _ => "SBA"
  | .sbs _ => "SBS"
  | .cba _ => "CBA"
  | .cbs _ => "CBS"
  | .iba _ => "IBA"
  | .ibs _ => "IBS"
  | .jmp _ => "JMP"
  | .bcs _ => "BCS"
  | .bcc _ => "BCC"
  | .cal _ => "CAL"
  | .rtn => "RTN"
  | .jac => "JAC"
  | .nop => "NOP"

/-- One line of the second table of R85: a first byte `b` is this instruction's when its bits under
`mask` are those of `pattern`. -/
structure OpcodeRow where
  mnemonic : String
  mask : Byte
  pattern : Byte
  deriving DecidableEq, Repr

/-- Whether a first byte matches a row of the mask and match table. -/
def OpcodeRow.fits (row : OpcodeRow) (b : Byte) : Bool := b &&& row.mask == row.pattern

/-- R85, the mask and match table: data transfer. -/
def opcodeRowsTransfer : List OpcodeRow :=
  [{ mnemonic := "LAR", mask := 0xF8, pattern := 0x10 },
   { mnemonic := "LTR", mask := 0xF8, pattern := 0x18 },
   { mnemonic := "LAM", mask := 0xFF, pattern := 0x04 },
   { mnemonic := "LTM", mask := 0xFF, pattern := 0x87 },
   { mnemonic := "LSM", mask := 0xFF, pattern := 0x05 },
   { mnemonic := "LAL", mask := 0xFF, pattern := 0x06 },
   { mnemonic := "LAH", mask := 0xFF, pattern := 0x07 },
   { mnemonic := "LAI", mask := 0xF0, pattern := 0x40 },
   { mnemonic := "LLI", mask := 0xF0, pattern := 0x60 },
   { mnemonic := "LHI", mask := 0xF0, pattern := 0x70 },
   { mnemonic := "LYI", mask := 0xF0, pattern := 0x50 },
   { mnemonic := "SAR", mask := 0xF8, pattern := 0x28 },
   { mnemonic := "SAM", mask := 0xFF, pattern := 0x0C },
   { mnemonic := "SSM", mask := 0xFF, pattern := 0x0D },
   { mnemonic := "SAL", mask := 0xFF, pattern := 0x0E },
   { mnemonic := "SAH", mask := 0xFF, pattern := 0x0F },
   { mnemonic := "SAY", mask := 0xFF, pattern := 0x08 },
   { mnemonic := "SYR", mask := 0xFC, pattern := 0x34 },
   { mnemonic := "CLR", mask := 0xF8, pattern := 0x20 }]

/-- R85, the mask and match table: operation. -/
def opcodeRowsOperation : List OpcodeRow :=
  [{ mnemonic := "ADI", mask := 0xF0, pattern := 0x90 },
   { mnemonic := "ADA", mask := 0xFF, pattern := 0x80 },
   { mnemonic := "ADM", mask := 0xFF, pattern := 0x88 },
   { mnemonic := "ACA", mask := 0xFF, pattern := 0x81 },
   { mnemonic := "ACM", mask := 0xFF, pattern := 0x89 },
   { mnemonic := "SUA", mask := 0xFF, pattern := 0x82 },
   { mnemonic := "SUM", mask := 0xFF, pattern := 0x8A },
   { mnemonic := "ORA", mask := 0xFF, pattern := 0x84 },
   { mnemonic := "ORM", mask := 0xFF, pattern := 0x8C },
   { mnemonic := "EOA", mask := 0xFF, pattern := 0x85 },
   { mnemonic := "EOM", mask := 0xFF, pattern := 0x8D },
   { mnemonic := "CMA", mask := 0xFF, pattern := 0x86 },
   { mnemonic := "CMM", mask := 0xFF, pattern := 0x8E },
   { mnemonic := "ICA", mask := 0xFF, pattern := 0x83 },
   { mnemonic := "ICM", mask := 0xFF, pattern := 0x8B },
   { mnemonic := "ICL", mask := 0xFF, pattern := 0x02 },
   { mnemonic := "ICH", mask := 0xFF, pattern := 0x03 },
   { mnemonic := "TSM", mask := 0xFF, pattern := 0x8F }]

/-- R85, the mask and match table: bit manipulation, branch, subroutine and the rest. -/
def opcodeRowsOther : List OpcodeRow :=
  [{ mnemonic := "TBA", mask := 0xFC, pattern := 0xA0 },
   { mnemonic := "TBS", mask := 0xFC, pattern := 0xB0 },
   { mnemonic := "SBA", mask := 0xFC, pattern := 0xA4 },
   { mnemonic := "SBS", mask := 0xFC, pattern := 0xB4 },
   { mnemonic := "CBA", mask := 0xFC, pattern := 0xA8 },
   { mnemonic := "CBS", mask := 0xFC, pattern := 0xB8 },
   { mnemonic := "IBA", mask := 0xFC, pattern := 0xAC },
   { mnemonic := "IBS", mask := 0xFC, pattern := 0xBC },
   { mnemonic := "JMP", mask := 0xF0, pattern := 0xE0 },
   { mnemonic := "BCS", mask := 0xF0, pattern := 0xC0 },
   { mnemonic := "BCC", mask := 0xF0, pattern := 0xD0 },
   { mnemonic := "CAL", mask := 0xF0, pattern := 0xF0 },
   { mnemonic := "RTN", mask := 0xFF, pattern := 0x01 },
   { mnemonic := "JAC", mask := 0xFF, pattern := 0x09 },
   { mnemonic := "NOP", mask := 0xFF, pattern := 0x00 }]

/-- R85: the map as mask and match values, all 52 instructions. -/
def opcodeRows : List OpcodeRow := opcodeRowsTransfer ++ opcodeRowsOperation ++ opcodeRowsOther

/-- The bytes of a table word: bit 0 of `w` is bit 0 of the first byte (R83), every bit from `nbits` on
is 0, and two bytes are the longest instruction (R80). -/
def tableWordBytes (nbits w : Nat) : List Byte :=
  [BitVec.ofNat 8 (w % 2 ^ nbits), BitVec.ofNat 8 (w % 2 ^ nbits / 256)]

/-- The instruction the decoder reads from a word of spec/opcode_table.json, `none` where it refuses. -/
def decodeTableWord (nbits w : Nat) : Option Instr :=
  match decode (tableWordBytes nbits w) with
  | .ok (i, _) => some i
  | .error _ => none

end Sys2Proof
end

