-- ==== Sys2Proof/Machine/Fetch.lean ====
section
/-! DEFINITION. Fetch and decode (spec/30_encoding.md R84, spec/20_memory.md R67), with the model stops of
spec/60_exceptions.md R200 in their order. -/

namespace Sys2Proof.Machine

/-- R67: `RomRead`. A populated byte the model was given; else the model stops (decision D5, log
entry 3). -/
def State.romRead (s : State) (a : ProgAddr) : Except Fault Byte :=
  if romPopulated s.cfg a then
    match Rom.read s.rom a with
    | some b => .ok b
    | none => .error (.romNotGiven a)
  else .error (.romUnpopulated a)

/-- R30, R31: the fetch of one byte counts PC up by one, modulo 4096 (decision D15). -/
def State.advancePc (s : State) : State := s.setPc (s.pc + 1)

/-- R84: the instruction that the fetched bytes are, in the state after their fetch; an unassigned
first byte stops the model (R86, decision D6). -/
def decodeFetched (b0 : Byte) (addr : ProgAddr) (bytes : List Byte) (s : State) :
    Except Fault (Instr × State) :=
  match decode bytes with
  | .ok (i, _) => .ok (i, s)
  | .error _ => .error (.illegalOpcode b0 addr)

/-- R84: the first byte goes to IR and PC counts up; where it asks for a second byte (R80) that one is
fetched too. -/
def State.fetch (s : State) : Except Fault (Instr × State) :=
  match s.romRead s.pc with
  | .error f => .error f
  | .ok b0 =>
    let s1 := (s.setIr b0).advancePc
    if isTwoByte b0 then
      match s1.romRead s1.pc with
      | .error f => .error f
      | .ok b1 => decodeFetched b0 s.pc [b0, b1] s1.advancePc
    else decodeFetched b0 s.pc [b0] s1

end Sys2Proof.Machine
end

