-- ==== Sys2Proof/Machine/Turns.lean ====
section
/-! DEFINITION. Whose turn it is, and what the core does with its turn (spec/60_exceptions.md R215). -/

namespace Sys2Proof.Machine

/-- R215, lines 2 to 4: nothing while holding; else a pending interrupt is accepted where it is enabled;
else one instruction is fetched and executed. Its meaning holds the EYR update (R29) and the hold
entry (R210). -/
def coreStep (s : State) : Result :=
  if s.holding then .next s
  else if s.il && s.intEnabled then .next s.acceptInterrupt
  else
    match s.fetch with
    | .error f => .fault f
    | .ok (i, t) => exec i t

/-- R215: the next turn of the schedule is taken. Where there is none the core moves, or, in a hold, the
clock, which never stops (R211): a schedule is finite, so every hold ends (R212, log entry 11). -/
def takeTurn (s : State) : Result :=
  match s.schedule with
  | [] => if s.holding then .next s.tickDivider else coreStep s
  | .core :: rest => coreStep (s.setSchedule rest)
  | t :: rest => .next ((s.setSchedule rest).applyTurn t)

end Sys2Proof.Machine
end

