-- ==== Sys2Proof/Machine/Step.lean ====
section
/-! DEFINITION. The machine step (spec/60_exceptions.md R215), and the placing of an instruction where the
next step fetches it. -/

namespace Sys2Proof.Machine

/-- One step of the machine: one turn (R215). A configuration no chip can have is refused
(decision D17, log entry 26). -/
def step (s : State) : Host.Outcome State Fault Refusal :=
  if validCfg s.cfg then takeTurn s else .refused .invalidConfiguration

/-- `s` with the instruction of a table word in program memory at PC, lowest byte first, and with what
else the very next step needs to fetch it: the core's turn is the next one, no hold is on (R210) and no
interrupt waits to be accepted instead (R204). In `State.reset` only program memory changes. -/
def State.withFetchWord (s : State) (nbits w : Nat) : State :=
  let bytes := tableWordBytes nbits w
  let t := s.setRom (Rom.write (Rom.write s.rom s.pc (bytes.headD 0)) (s.pc + 1) (bytes.getLastD 0))
  let u := if t.schedule.isEmpty then t else t.setSchedule (.core :: t.schedule)
  let v := if u.holding then u.releaseHold else u
  if v.il && v.intEnabled then v.setIl false else v

end Sys2Proof.Machine
end

