-- ==== Sys2Proof/Machine/Timing.lean ====
section
/-! DEFINITION. Timing as annotation (spec/70_reset_and_hazards.md R260, spec/60_exceptions.md R220 and R225,
spec/00_scope.md R5): no step depends on it (decision D20). -/

namespace Sys2Proof.Machine

/-- R260: instruction execute cycles; a conditional branch takes two, taken or not. -/
def cycles : Instr → Nat
  | .jmp _ | .bcs _ | .bcc _ | .cal _ | .rtn | .jac => 2
  | .lar _ | .ltr _ | .lam | .ltm | .lsm | .lal | .lah | .lai _ | .lli _ | .lhi _ | .lyi _
  | .sar _ | .sam | .ssm | .sal | .sah | .say | .syr _ | .clr _ | .adi _ | .ada | .adm | .aca
  | .acm | .sua | .sum | .ora | .orm | .eoa | .eom | .cma | .cmm | .ica | .icm | .icl | .ich
  | .tsm | .tba _ | .tbs _ | .sba _ | .sbs _ | .cba _ | .cbs _ | .iba _ | .ibs _ | .nop => 1

/-- R261: one instruction cycle is two periods of the basic clock CP. -/
def cpPeriods (i : Instr) : Nat := 2 * cycles i

/-- R5, option CP: the oscillator periods in one period of CP. -/
def cpRatio : Typ → Nat
  | .typ001 | .typ002 => 1
  | .typ003 => 4
  | .typ004 => 2
  | .typ005 => 64
  | .typ006 => 32

/-- R225: what the CK pin puts out, inverted: the oscillation divided by a number, or CP itself. -/
inductive CkSource where
  | oscillatorOver (n : Nat)
  | cp
  deriving DecidableEq, Repr

/-- R5, option CK. -/
def ckSource : Typ → CkSource
  | .typ001 => .oscillatorOver 32
  | .typ002 => .oscillatorOver 64
  | .typ003 | .typ004 | .typ005 | .typ006 => .cp

end Sys2Proof.Machine
end

