-- ==== Sys2Proof/Safety.lean ====
section
/-! DEFINITION. The terms in which statements are made: the invariant of the machine, what a memory access
reads and stores, and the status register written flag by flag. -/

namespace Sys2Proof.Safety

open Sys2Proof.Machine

/-- What holds of the machine between any two steps. -/
structure Inv (s : State) : Prop where
  /-- Data memory is in its canonical form. -/
  ramForm : Memory.wf s.ram = true
  /-- Only populated words are listed (R64). -/
  ramOnlyPopulated : ∀ c ∈ s.ram, ramPopulated s.cfg (BitVec.ofNat 8 c.1) = true
  /-- Program memory is in its canonical form. -/
  romForm : Rom.wf s.rom = true
  /-- No request waits in a hold (R210), where requests made in a hold are dropped (R214). -/
  holdDropsRequest : s.holding = true → s.cfg.intInHold = .dropped → s.il = false
  /-- R224: divider (2) of TYP002 counts 0 to 12499. -/
  dividerRange : s.cfg.typ = .typ002 → (divider2 s.div).toNat < 12500

/-- R21: the status register with these flags, Z in bit 3, C in bit 2, D in bit 1, H in bit 0. -/
def flags (z c d h : Bool) : Nibble :=
  BitVec.ofNat 4 (8 * z.toNat + 4 * c.toNat + 2 * d.toNat + h.toNat)

/-- R63: `m` is what an instruction reads from data memory at its effective address, and `t` the state
after that read. At a populated address `m` is the word there and nothing changes; elsewhere `m` may
be any value, and only the model's count of free values goes up. -/
def Reads (s : State) (m : Nibble) (t : State) : Prop :=
  (ramPopulated s.cfg s.ea = true → m = Memory.read s.ram s.ea ∧ t = s) ∧
    (ramPopulated s.cfg s.ea = false → t = { s with draws := s.draws + 1 })

/-- R64: between `s` and `t` the word at `a` became `v`, and every other word of data memory kept its
content. -/
def Stores (s t : State) (a : DataAddr) (v : Nibble) : Prop :=
  Memory.read t.ram a = v ∧ ∀ b, b ≠ a → Memory.read t.ram b = Memory.read s.ram b

/-- It is the core's turn and the core is free to run an instruction: the configuration is valid, no
hold is on and no interrupt is accepted instead (R215). -/
def CoreRuns (s : State) : Prop :=
  validCfg s.cfg = true ∧ (s.schedule = [] ∨ s.schedule.head? = some .core) ∧ s.holding = false ∧
    (s.il && s.intEnabled) = false

/-- The bytes stand in program memory from PC on. -/
def BytesAtPc (s : State) (bytes : List Byte) : Prop :=
  ∀ k b, bytes[k]? = some b → s.romRead (s.pc + BitVec.ofNat 12 k) = .ok b

end Sys2Proof.Safety
end

