-- ==== Sys2Proof/Certificates/Slice0/Obligations.lean ====
section
/-! DEFINITION. The statements for the provers. An equation `exec i s = .next { s with … }` says that the
instruction completes, what it changes, and that it changes nothing else; `exec` runs after the fetch,
so PC is already past the instruction (spec/30_encoding.md R84). -/

open Sys2Proof Sys2Proof.Machine Sys2Proof.Safety

/-! ### Encoding -/

/-- Decoding the bytes of any well-formed instruction, whatever bytes follow, gives it back: no operand
bit is dropped. -/
def Obligations.DecodeOfEncodeIsIdentity : Prop :=
  ∀ (i : Instr) (rest : List Byte), i.wellFormed = true → decode (encode i ++ rest) = .ok (i, rest)

/-- What decodes was encoded: the decoder answers well-formed instructions only, and takes exactly the
bytes of the instruction. -/
def Obligations.EncodeOfDecodeIsIdentity : Prop :=
  ∀ (bytes : List Byte) (i : Instr) (rest : List Byte),
    decode bytes = .ok (i, rest) → i.wellFormed = true ∧ bytes = encode i ++ rest

/-- The decoder, written from the map by rows and columns, agrees with the mask and match table: the
first byte of what decodes fits that instruction's row and no other. -/
def Obligations.DecoderAgreesWithMaskTable : Prop :=
  ∀ (b : Byte) (tail : List Byte) (i : Instr) (rest : List Byte),
    decode (b :: tail) = .ok (i, rest) →
      (opcodeRows.filter fun row => row.fits b).map OpcodeRow.mnemonic = [i.mnemonic]

/-- R80: an instruction has one byte or two; it has two exactly when bits 7..6 of its first byte are
`11`, and the two-byte instructions are BCS, BCC, JMP and CAL. -/
def Obligations.LengthDecidedByFirstByte : Prop :=
  ∀ (b : Byte) (tail : List Byte) (i : Instr) (rest : List Byte),
    decode (b :: tail) = .ok (i, rest) →
      (b.extractLsb' 6 2 = 0b11#2 → ∃ b1, tail = b1 :: rest) ∧
        (b.extractLsb' 6 2 ≠ 0b11#2 → tail = rest) ∧
        (b.extractLsb' 6 2 = 0b11#2 ↔ ∃ ap, i = .bcs ap ∨ i = .bcc ap ∨ i = .jmp ap ∨ i = .cal ap)

/-- R83: the target of a two-byte instruction is its second byte over the low nibble of its first, and
the two bytes are rebuilt from it. (Which byte comes first: log entry 17.) -/
def Obligations.BranchTargetAssembledFromBothBytes : Prop :=
  ∀ b0 b1 : Byte, isTwoByte b0 = true → ∃ ap : ProgAddr,
    ap.toNat = b1.toNat * 16 + b0.toNat % 16 ∧
      (b0.toNat / 16 = 0xC → decode [b0, b1] = .ok (.bcs ap, []) ∧ encode (.bcs ap) = [b0, b1]) ∧
      (b0.toNat / 16 = 0xD → decode [b0, b1] = .ok (.bcc ap, []) ∧ encode (.bcc ap) = [b0, b1]) ∧
      (b0.toNat / 16 = 0xE → decode [b0, b1] = .ok (.jmp ap, []) ∧ encode (.jmp ap) = [b0, b1]) ∧
      (b0.toNat / 16 = 0xF → decode [b0, b1] = .ok (.cal ap, []) ∧ encode (.cal ap) = [b0, b1])

/-- Eleven words written out from the binary column of R85 decode to their instructions, and the
unassigned byte 33 (R86) to none. The opcode byte of JMP and CAL comes first by log entry 17. -/
def Obligations.SampleWordsDecode : Prop :=
  decode [0b00010110#8] = .ok (.lar 6, []) ∧ decode [0b00011101#8] = .ok (.ltr 5, []) ∧
    decode [0b00110111#8] = .ok (.syr 7, []) ∧ decode [0b01001010#8] = .ok (.lai 10, []) ∧
    decode [0b10001111#8] = .ok (.tsm, []) ∧ decode [0b10011111#8] = .ok (.adi 15, []) ∧
    decode [0b10100110#8] = .ok (.sba 2, []) ∧ decode [0b10111111#8] = .ok (.ibs 3, []) ∧
    decode [0b11100111#8, 0b00101010#8] = .ok (.jmp 0x2A7, []) ∧
    decode [0b11111111#8, 0b00000000#8] = .ok (.cal 0x00F, []) ∧
    decode [0b00001001#8] = .ok (.jac, []) ∧ decode [0b00110011#8] = .error (.unassigned 0x33)

/-- R86: the fourteen unassigned first bytes are no instruction and stop the machine that fetches them;
every other first byte is assigned, with any second byte where it takes one. (Log entry 12.) -/
def Obligations.UnassignedFirstBytesStop : Prop :=
  ∀ b : Byte,
    (b ∈ ([0x0A, 0x0B, 0x30, 0x31, 0x32, 0x33, 0x38, 0x39, 0x3A, 0x3B, 0x3C, 0x3D, 0x3E, 0x3F] : List Byte) →
      (∀ rest, decode (b :: rest) = .error (.unassigned b)) ∧
        ∀ s, CoreRuns s → s.romRead s.pc = .ok b → step s = .fault (.illegalOpcode b s.pc)) ∧
    (b ∉ ([0x0A, 0x0B, 0x30, 0x31, 0x32, 0x33, 0x38, 0x39, 0x3A, 0x3B, 0x3C, 0x3D, 0x3E, 0x3F] : List Byte) →
      ∀ b1 rest, ∃ i r, decode (b :: b1 :: rest) = .ok (i, r))

/-! ### Fetch and the machine step -/

/-- The machine runs what its bytes decode to: where the core is free to run and the bytes from PC on
decode to `i`, the step is `exec i` after the fetch, which takes the turn from the schedule, puts the
first byte in IR and moves PC past the instruction. (Log entries 11 and 31.) -/
def Obligations.StepRunsDecodedInstruction : Prop :=
  ∀ (s : State) (b0 : Byte) (more : List Byte) (i : Instr),
    CoreRuns s → decode (b0 :: more) = .ok (i, []) → BytesAtPc s (b0 :: more) →
      step s = exec i { s with
        schedule := s.schedule.tail
        ir := b0
        pc := s.pc + BitVec.ofNat 12 (more.length + 1) }

/-- R67: a fetch at an address without program memory stops the machine, for the first byte and for the
second byte of a two-byte instruction. (Log entry 13.) -/
def Obligations.FetchOutsideProgramMemoryStops : Prop :=
  ∀ s : State, CoreRuns s →
    (romPopulated s.cfg s.pc = false → step s = .fault (.romUnpopulated s.pc)) ∧
      (∀ b0, s.romRead s.pc = .ok b0 → isTwoByte b0 = true →
        romPopulated s.cfg (s.pc + 1) = false → step s = .fault (.romUnpopulated (s.pc + 1)))

/-- An instruction placed with `withFetchWord` is the one that the very next step runs, from every state
with a valid configuration whose PC points into program memory; from `State.reset` as well. (Log entries
3 and 31.) -/
def Obligations.PlacedWordRunsNext : Prop :=
  ∀ (s : State) (nbits w : Nat) (i : Instr),
    validCfg s.cfg = true → romPopulated s.cfg s.pc = true → romPopulated s.cfg (s.pc + 1) = true →
    decodeTableWord nbits w = some i →
      step (s.withFetchWord nbits w) = exec i { s.withFetchWord nbits w with
        schedule := s.schedule
        ir := BitVec.ofNat 8 (w % 2 ^ nbits)
        pc := s.pc + BitVec.ofNat 12 i.length }

/-- The configurations of real chips, and no others, are run (log entries 26 and 33): a step refuses a
decode-matrix line that selects a literal and its complement (R45, decision D17), and data memory (R61) or
program memory (R66) whose regions are not in rising order apart from each other, leave the address
space, miss the part's capacity (R2), or leave out page 0 or one of the program addresses 0, 2 and 4.
Any other configuration is never refused. -/
def Obligations.InvalidConfigurationRefused : Prop :=
  ∀ s : State,
    let lines : Prop := ∀ b ∈ [s.cfg.dec.dec0, s.cfg.dec.dec1, s.cfg.dec.dec2, s.cfg.dec.dec3, s.cfg.dec.dec4],
      ∀ j, j < 4 → ¬(b.getLsbD (2 * j) = true ∧ b.getLsbD (2 * j + 1) = true)
    let mapped (regions : List Region) (limit capacity : Nat) (needed : List Nat) : Prop :=
      regions.Pairwise (fun r q => r.base + r.size ≤ q.base) ∧
        (∀ r ∈ regions, r.base + r.size ≤ limit) ∧ (regions.map Region.size).sum = capacity ∧
        ∀ a ∈ needed, ∃ r ∈ regions, r.base ≤ a ∧ a < r.base + r.size
    let possible : Prop := lines ∧
      mapped s.cfg.ramMap 256 (if s.cfg.chip = .tcp4620ap then 96 else 160) (List.range 16) ∧
      mapped s.cfg.romMap 4096 (if s.cfg.chip = .tcp4620ap then 2048 else 3072) [0, 2, 4]
    (¬possible → step s = .refused .invalidConfiguration) ∧ (possible → ∀ r, step s ≠ .refused r)

/-- No step changes the program memory or the mask options. -/
def Obligations.StepNeverChangesMask : Prop :=
  ∀ s t : State, step s = .next t → t.rom = s.rom ∧ t.cfg = s.cfg

/-- The invariant of the machine holds after every step from a state in which it holds. Its clauses rest
on choices of the model: the canonical forms on log entries 2, 3 and 6, the empty latch in a hold, which
is asked only where INT_IN_HOLD is dropped, on entry 24, the range of the divider on entry 20. -/
def Obligations.StepKeepsInvariant : Prop :=
  ∀ s t : State, Inv s → step s = .next t → Inv t

/-- The state right after reset meets the invariant. -/
def Obligations.ResetMeetsInvariant : Prop := Inv State.reset

/-! ### Reset -/

/-- R49: what the initialize operation sets, in the state right after reset. -/
def Obligations.ResetStateAsStated : Prop :=
  State.reset.pc = 0x000 ∧ State.reset.fstk = true ∧ State.reset.il = false ∧
    State.reset.hFlag = false ∧ State.reset.dFlag = false ∧ State.reset.eyr = false ∧
    State.reset.ports = { reg0 := 0, reg1 := 0, reg2 := 0, reg4 := 0, reg5 := 0b00000, reg6 := 0x00 } ∧
    State.reset.holding = false ∧ State.reset.intEnabled = false

/-- R240, R241, R242: a RESET pulse of two cycles or more, at any boundary and in a hold too, resets D,
H, IL, the port registers, PC and EYR and sets FSTK; AC, memory, H, L and Y registers, Z, C, the stack
entry and the divider keep what they hold. (Log entries 7, 11 and 36.) -/
def Obligations.ResetPulseInitializes : Prop :=
  ∀ (s : State) (low : Nat) (rest : List Turn),
    validCfg s.cfg = true → s.schedule = .resetPulse low :: rest → 4 ≤ low →
      step s = .next { s with
        st := flags s.zFlag s.cFlag false false
        il := false
        ports := { reg0 := 0, reg1 := 0, reg2 := 0, reg4 := 0, reg5 := 0, reg6 := 0 }
        fstk := true
        pc := 0x000
        eyr := false
        schedule := rest }

/-- R240: a RESET pulse shorter than two cycles resets the whole machine or does nothing, and which of
the two is left open. (Log entry 7.) -/
def Obligations.ShortResetPulseIsAllOrNothing : Prop :=
  ∀ (s : State) (low : Nat) (rest : List Turn),
    validCfg s.cfg = true → s.schedule = .resetPulse low :: rest → 0 < low → low < 4 →
      step s = .next { s with schedule := rest, draws := s.draws + 1 } ∨
        step s = .next ({ s with schedule := rest, draws := s.draws + 1 }).initialize

/-! ### Interrupt -/

/-- R202: an INT pulse of two cycles or more after a high time of two cycles or more sets the latch;
where INT was not high before, nothing is set; in the cases between it is left open. (No hold.) (Log
entry 7.) -/
def Obligations.InterruptRequestSetsLatch : Prop :=
  ∀ (s : State) (high low : Nat) (rest : List Turn),
    validCfg s.cfg = true → s.schedule = .intPulse high low :: rest → s.holding = false →
      (4 ≤ high → 4 ≤ low → step s = .next { s with il := true, schedule := rest }) ∧
      (high = 0 ∨ low = 0 → step s = .next { s with schedule := rest }) ∧
      (0 < high → 0 < low → high < 4 ∨ low < 4 →
        step s = .next { s with schedule := rest, draws := s.draws + 1 } ∨
          step s = .next { s with il := true, schedule := rest, draws := s.draws + 1 })

/-- R214: a request made in a hold is dropped or latched, as the parameter says (log entry 24); the pulse
widths are those of R202, and a short pulse is left open (log entry 7). It never ends the hold. -/
def Obligations.InterruptRequestInHold : Prop :=
  ∀ (s : State) (high low : Nat) (rest : List Turn),
    validCfg s.cfg = true → s.schedule = .intPulse high low :: rest → s.holding = true →
      let latch : Bool := if s.cfg.intInHold = .latched then true else s.il
      (4 ≤ high → 4 ≤ low → step s = .next { s with il := latch, schedule := rest }) ∧
      (high = 0 ∨ low = 0 → step s = .next { s with schedule := rest }) ∧
      (0 < high → 0 < low → high < 4 ∨ low < 4 →
        step s = .next { s with schedule := rest, draws := s.draws + 1 } ∨
          step s = .next { s with il := latch, schedule := rest, draws := s.draws + 1 })

/-- R215: a change of the input pins gives them their new levels, in a hold too, and changes nothing
else (log entries 10 and 11). -/
def Obligations.PinChangeSetsPins : Prop :=
  ∀ (s : State) (levels : Pins) (rest : List Turn),
    validCfg s.cfg = true → s.schedule = .pinChange levels :: rest →
      step s = .next { s with pins := levels, schedule := rest }

/-- R204: with a request latched, EYR = 0, FSTK = 0 and no hold, the core's turn accepts the interrupt:
PC to the stack, FSTK set, PC to address 2, the latch cleared, nothing else. (Log entries 22 and 23.) -/
def Obligations.InterruptAccepted : Prop :=
  ∀ s : State, validCfg s.cfg = true → s.schedule = [] ∨ s.schedule.head? = some .core →
    s.il = true → s.eyr = false → s.fstk = false → s.holding = false →
      step s = .next { s with
        stk := s.pc
        fstk := true
        pc := 0x002
        il := false
        schedule := s.schedule.tail }

/-- R203: while EYR or FSTK is 1 a latched request only waits: the step runs as it would without it, and
the request stays latched unless the step begins a hold. (Log entries 22 and 25.) -/
def Obligations.DisabledInterruptWaits : Prop :=
  ∀ s t : State, s.schedule = [] ∨ s.schedule.head? = some .core → s.holding = false →
    s.eyr = true ∨ s.fstk = true →
      step { s with il := false } = .next t →
        step { s with il := true } = .next { t with il := !t.holding }

/-- R205, R206: RTN after an accepted interrupt resumes where the program was interrupted, with FSTK and
EYR at 0 and all else as at the acceptance. (What acceptance changes: log entry 23.) -/
def Obligations.ReturnFromInterruptResumes : Prop :=
  ∀ s : State, exec .rtn s.acceptInterrupt =
    .next { s with stk := s.pc, fstk := false, il := false, eyr := false }

/-- R245: after reset only RTN enables the interrupt: no other instruction resets FSTK, and none but CAL
and RTN changes it. -/
def Obligations.OnlyRtnResetsStackFlag : Prop :=
  ∀ (i : Instr) (s t : State), exec i s = .next t → t.fstk ≠ s.fstk →
    (i = .rtn ∧ t.fstk = false) ∨ ((∃ ap, i = .cal ap) ∧ t.fstk = true)

/-! ### Hold -/

/-- R211: in a hold the core's turn changes nothing. (With no turn to come, the clock moves instead: log
entry 11.) -/
def Obligations.CoreIdlesInHold : Prop :=
  ∀ (s : State) (rest : List Turn), validCfg s.cfg = true → s.schedule = .core :: rest →
    s.holding = true → step s = .next { s with schedule := rest }

/-- R212: a period of CP in a hold, by its own turn or with no turn to come (log entry 11), ends the hold
by resetting H, exactly when C3 falls; the divider counts either way and nothing else changes. C3 is
the divider output of R223's table (bits by log entry 20), for the three types that hold. -/
def Obligations.HoldEndsOnTrailingEdgeOfC3 : Prop :=
  ∀ (s : State) (rest : List Turn) (c3 : Nat), validCfg s.cfg = true →
    s.schedule = .divTick :: rest ∨ s.schedule = [] ∧ rest = [] → s.holding = true →
    (s.cfg.typ, c3) ∈ [(.typ001, 13), (.typ002, 15), (.typ003, 15)] → ∃ t, step s = .next t ∧
      t = { s with div := dividerTick s.cfg.typ s.div, schedule := rest, st := t.st } ∧
      (s.div.getLsbD c3 = true ∧ t.div.getLsbD c3 = false →
        t.st = flags s.zFlag s.cFlag s.dFlag false) ∧
      (¬(s.div.getLsbD c3 = true ∧ t.div.getLsbD c3 = false) → t.st = s.st)

/-- R212: a hold ends: whatever the divider holds, within 65536 periods of CP H is reset, and but for
the divider nothing else has changed, so that execution goes on at PC. And it is guaranteed to end: after
any turns to come, a hold is over at the latest 65536 steps later (decision D14; log entries 11, 20). -/
def Obligations.HoldEndsWithinOneDividerRound : Prop :=
  ∀ s : State, validCfg s.cfg = true → s.holding = true →
    (∀ (n : Nat) (rest : List Turn), 65536 ≤ n →
      ∃ d, Host.Core.run Sys2Proof.core n { s with schedule := List.replicate n .divTick ++ rest } =
        .next { s with st := flags s.zFlag s.cFlag s.dFlag false, div := d, schedule := rest }) ∧
    ∃ (n : Nat) (t : State), n ≤ s.schedule.length + 65536 ∧
      Host.Core.run Sys2Proof.core n s = .next t ∧ t.holding = false

/-- R221, R224: the divider counts periods of CP modulo 65536; that of TYP002, whose divider (2) is reset
at 12500, modulo 50000 (log entry 20). A period of CP changes nothing else, except that one in a hold may
reset H, with Z, C and D kept. -/
def Obligations.DividerCountsBasicClock : Prop :=
  ∀ (s : State) (rest : List Turn), validCfg s.cfg = true → s.schedule = .divTick :: rest →
    (s.cfg.typ = .typ002 → s.div.toNat < 50000) → ∃ t, step s = .next t ∧
      t.div.toNat = (s.div.toNat + 1) % (if s.cfg.typ = .typ002 then 50000 else 65536) ∧
      t = { s with div := t.div, schedule := rest, st := t.st } ∧
      (t.st = s.st ∨ s.holding = true ∧ t.st = flags s.zFlag s.cFlag s.dFlag false)

/-! ### Rules over all instructions -/

/-- R29: LYI and SAY set EYR, the ten instructions that write data memory leave it, all others reset it.
(For ten of the instructions whose table cell is lost, by log entry 29.) -/
def Obligations.YFlagAfterEveryInstruction : Prop :=
  ∀ (i : Instr) (s t : State), exec i s = .next t →
    ((∃ n, i = .lyi n) ∨ i = .say → t.eyr = true) ∧
      (i ∈ [.sam, .ssm, .adm, .acm, .sum, .orm, .eom, .cmm, .icm, .tsm] → t.eyr = s.eyr) ∧
      ((∀ n, i ≠ .lyi n) → i ≠ .say →
        i ∉ [.sam, .ssm, .adm, .acm, .sum, .orm, .eom, .cmm, .icm, .tsm] → t.eyr = false)

/-- R24: D is written only by LSM and by SBS, CBS and IBS with G = 1; R25: H by LSM and by the three
with G = 0. -/
def Obligations.OnlyStatusInstructionsWriteDAndH : Prop :=
  ∀ (i : Instr) (s t : State), exec i s = .next t →
    (t.dFlag ≠ s.dFlag → i = .lsm ∨ i = .sbs 1 ∨ i = .cbs 1 ∨ i = .ibs 1) ∧
      (t.hFlag ≠ s.hFlag → i = .lsm ∨ i = .sbs 0 ∨ i = .cbs 0 ∨ i = .ibs 0)

/-- R22, R23: no instruction but those the rules name changes Z, and none but those they name changes C. -/
def Obligations.OnlyNamedInstructionsWriteZAndC : Prop :=
  ∀ (i : Instr) (s t : State), exec i s = .next t →
    (t.zFlag ≠ s.zFlag →
      (∃ r, i = .ltr r) ∨ (∃ n, i = .adi n) ∨ (∃ g, i = .tba g) ∨ (∃ g, i = .tbs g) ∨
        i ∈ [.ltm, .ada, .adm, .aca, .acm, .sua, .sum, .ora, .orm, .eoa, .eom, .cma, .cmm, .ica, .icm,
          .tsm, .lsm, .sbs 3, .cbs 3, .ibs 3]) ∧
      (t.cFlag ≠ s.cFlag →
        (∃ n, i = .adi n) ∨
          i ∈ [.ada, .adm, .aca, .acm, .ica, .icm, .sua, .sum, .lsm, .sbs 2, .cbs 2, .ibs 2])

/-- R20: the instructions that write AC are those the rule lists; R32: CAL is the one that writes the
stack entry; R30: PC, already past the instruction, changes only by a branch, CAL, RTN or JAC. -/
def Obligations.OnlyNamedInstructionsWriteRegisters : Prop :=
  ∀ (i : Instr) (s t : State), exec i s = .next t →
    (t.ac ≠ s.ac →
      (∃ r, i = .lar r ∨ i = .ltr r) ∨ (∃ n, i = .lai n ∨ i = .adi n) ∨
        (∃ g, i = .sba g ∨ i = .cba g ∨ i = .iba g) ∨
        i ∈ [.lam, .ltm, .lal, .lah, .ada, .aca, .sua, .ora, .eoa, .cma, .ica]) ∧
      (t.stk ≠ s.stk → ∃ ap, i = .cal ap) ∧
      (t.pc ≠ s.pc →
        (∃ ap, i = .jmp ap ∨ i = .bcs ap ∨ i = .bcc ap ∨ i = .cal ap) ∨ i = .rtn ∨ i = .jac)

/-- Only the ten memory-writing instructions change data memory, and each changes at most the word at
its effective address. -/
def Obligations.OnlyTenInstructionsWriteMemory : Prop :=
  ∀ (i : Instr) (s t : State), exec i s = .next t →
    (i ∉ [.sam, .ssm, .adm, .acm, .sum, .orm, .eom, .cmm, .icm, .tsm] →
      ∀ a, Memory.read t.ram a = Memory.read s.ram a) ∧
    ∀ a, a ≠ s.ea → Memory.read t.ram a = Memory.read s.ram a

/-- Only SAR, SYR and CLR write a port register; no instruction touches the divider, the input pins,
IR, the schedule, the program memory or the mask options; and none sets the interrupt latch. -/
def Obligations.InstructionsLeaveTheRestAlone : Prop :=
  ∀ (i : Instr) (s t : State), exec i s = .next t →
    ((∀ r, i ≠ .sar r) → (∀ r, i ≠ .syr r) → (∀ r, i ≠ .clr r) → t.ports = s.ports) ∧
      t.div = s.div ∧ t.pins = s.pins ∧ t.ir = s.ir ∧ t.schedule = s.schedule ∧ t.rom = s.rom ∧
      t.cfg = s.cfg ∧ (t.il = true → s.il = true)

/-! ### Memory and operands -/

/-- Reading data memory after a write: the written word at its address, the old word elsewhere, whatever
the list of cells. -/
def Obligations.MemoryReadAfterWrite : Prop :=
  ∀ (m : List (Nat × Nibble)) (a b : DataAddr) (v : Nibble),
    Memory.read (Memory.write m a v) b = if b = a then v else Memory.read m b

/-- Memories in canonical form that read the same at every address are the same list. (The form is log
entries 2 and 6.) -/
def Obligations.CanonicalMemoryDeterminedByReads : Prop :=
  ∀ m n : List (Nat × Nibble), Memory.wf m = true → Memory.wf n = true →
    (∀ a, Memory.read m a = Memory.read n a) → m = n

/-- R62: the effective address is YR in page 0 where EYR = 1, and page HR, word LR where EYR = 0; and no
memory access moves a pointer: LR, HR and YR change by LLI, SAL, ICL, by LHI, SAH, ICH, and by LYI, SAY
only. -/
def Obligations.EffectiveAddressRule : Prop :=
  ∀ s : State, (s.eyr = true → s.ea.toNat = s.yr.toNat) ∧
    (s.eyr = false → s.ea.toNat = 16 * s.hr.toNat + s.lr.toNat) ∧
    ∀ (i : Instr) (t : State), exec i s = .next t →
      (t.lr ≠ s.lr → (∃ n, i = .lli n) ∨ i = .sal ∨ i = .icl) ∧
      (t.hr ≠ s.hr → (∃ n, i = .lhi n) ∨ i = .sah ∨ i = .ich) ∧
      (t.yr ≠ s.yr → (∃ n, i = .lyi n) ∨ i = .say)

/-- R44: line i of the decode matrix is the product of the literals its designation selects, in bit i of
the image; a line that selects none is 1 for every datum. -/
def Obligations.DecodeMatrixIsProductOfLiterals : Prop :=
  ∀ (m : DecodeMatrix) (d : Nibble) (i : Nat) (b : Byte), [m.dec0, m.dec1, m.dec2, m.dec3, m.dec4][i]? = some b →
    ((decodeImage m d).getLsbD i = true ↔ ∀ j, j < 4 →
      (b.getLsbD (2 * j) = false ∨ d.getLsbD j = true) ∧
        (b.getLsbD (2 * j + 1) = false ∨ d.getLsbD j = false)) ∧
    (b = 0x00 → (decodeImage m d).getLsbD i = true)

/-- R37, R38: the pins show the port registers: ports 1, 5 and 6 always, the output bits of ports 2 and 4,
which the five combinations of R6 give, and port 0 while it is an output. That input pins are not driven, whatever their register holds, is the
spec's own decision D18 (log entry 28). -/
def Obligations.OutputPinsShowRegisters : Prop :=
  ∀ s : State,
    (∀ i, s.drivenLevel (.p1 i) = some (s.ports.reg1.getLsbD i)) ∧
    (∀ i, s.drivenLevel (.po5 i) = some (s.ports.reg5.getLsbD i)) ∧
    (∀ i, s.drivenLevel (.po6 i) = some (s.ports.reg6.getLsbD i)) ∧
    (s.cfg.std = .std1 ∨ s.dFlag = true → ∀ i, s.drivenLevel (.p0 i) = some (s.ports.reg0.getLsbD i)) ∧
    (s.cfg.std = .stdD → s.dFlag = false → ∀ i, s.drivenLevel (.p0 i) = none) ∧
    ∀ p2 p4 : Nibble, (s.cfg.portDir, p2, p4) ∈ ([(.p2fp4f, 0xF, 0xF), (.p2fp43, 0xF, 0x3),
        (.p20p4f, 0x0, 0xF), (.p20p43, 0x0, 0x3), (.p20p40, 0x0, 0x0)] : List (PortDir × Nibble × Nibble)) →
      (∀ i, s.drivenLevel (.p2 i) = if p2.getLsbD i then some (s.ports.reg2.getLsbD i) else none) ∧
        ∀ i, s.drivenLevel (.p4 i) = if p4.getLsbD i then some (s.ports.reg4.getLsbD i) else none

/-! ### Data transfer -/

/-- R40, R101, R102: LAR loads AC from the port register or the pins the number names, LTR sets Z as well;
from port 0 as an output some value is loaded, which is left open (log entry 9). The directions of ports
2 and 4 are those of R6, the divider outputs in port 6 those of R223 (bits by log entry 20). -/
def Obligations.LoadFromPort : Prop :=
  ∀ s : State,
    let loads (r : BitVec 3) (v : Nibble) : Prop :=
      exec (.lar r) s = .next { s with ac := v, eyr := false } ∧
        exec (.ltr r) s = .next { s with
          ac := v, st := flags (v == 0) s.cFlag s.dFlag s.hFlag, eyr := false }
    (s.cfg.std = .stdD ∧ s.dFlag = false → loads 0 s.pins.p0) ∧
      (s.cfg.std = .std1 ∨ s.dFlag = true → ∃ v,
        exec (.lar 0) s = .next { s with ac := v, eyr := false, draws := s.draws + 1 } ∧
          exec (.ltr 0) s = .next { s with
            ac := v, st := flags (v == 0) s.cFlag s.dFlag s.hFlag, eyr := false, draws := s.draws + 1 }) ∧
      loads 1 s.ports.reg1 ∧
      (∀ p2 p4 : Nibble, (s.cfg.portDir, p2, p4) ∈ ([(.p2fp4f, 0xF, 0xF), (.p2fp43, 0xF, 0x3),
          (.p20p4f, 0x0, 0xF), (.p20p43, 0x0, 0x3), (.p20p40, 0x0, 0x0)] : List (PortDir × Nibble × Nibble)) →
        (∃ v, loads 2 v ∧ ∀ i : Nat, v.getLsbD i =
          if p2.getLsbD i then s.ports.reg2.getLsbD i else s.pins.p2.getLsbD i) ∧
        ∃ v, loads 4 v ∧ ∀ i : Nat, v.getLsbD i =
          if p4.getLsbD i then s.ports.reg4.getLsbD i else s.pins.p4.getLsbD i) ∧
      loads 5 s.pins.pi5 ∧
      ∀ c1 c2 c3 : Nat, (s.cfg.typ, c1, c2, c3) ∈ [(.typ001, 11, 12, 13), (.typ002, 13, 14, 15),
          (.typ003, 13, 14, 15), (.typ004, 9, 12, 15), (.typ005, 12, 13, 14), (.typ006, 9, 12, 15)] →
        loads 6 (flags (s.div.getLsbD c3) (s.div.getLsbD c2) (s.div.getLsbD c1) s.pins.pi60)

/-- R40, R41, R87: the register numbers without a function stop the machine: 3 in every instruction that
can name it, 7 on a read, and 7 on a write under PO60. (Log entry 15.) -/
def Obligations.UndefinedRegisterStops : Prop :=
  ∀ s : State,
    exec (.lar 3) s = .fault (.undefinedRegister 3) ∧ exec (.ltr 3) s = .fault (.undefinedRegister 3) ∧
      exec (.sar 3) s = .fault (.undefinedRegister 3) ∧ exec (.clr 3) s = .fault (.undefinedRegister 3) ∧
      exec (.lar 7) s = .fault (.undefinedRegister 7) ∧ exec (.ltr 7) s = .fault (.undefinedRegister 7) ∧
      (∀ pla, s.cfg.po6 = .po60 pla →
        exec (.sar 7) s = .fault (.undefinedRegister 7) ∧
          exec (.syr 7) s = .fault (.undefinedRegister 7) ∧
          exec (.clr 7) s = .fault (.undefinedRegister 7))

/-- R103, R104: LAM and LTM load AC with the word at the effective address, and LTM sets Z from it.
(Unpopulated addresses by log entry 8.) -/
def Obligations.LoadFromMemory : Prop :=
  ∀ s : State, ∃ m t, Reads s m t ∧
    exec .lam s = .next { t with ac := m, eyr := false } ∧
    exec .ltm s = .next { t with
      ac := m, st := flags (m == 0) s.cFlag s.dFlag s.hFlag, eyr := false }

/-- R105, R210: LSM loads all four flags from the word at the effective address (bit order by log entry
21, unpopulated addresses by log entry 8); where H becomes 1 under HOLDH, which is TYP001 to TYP003 (R5),
the hold begins and a waiting request is discarded (log entry 25). -/
def Obligations.LoadStatusFromMemory : Prop :=
  ∀ s : State, ∃ m t, Reads s m t ∧
    exec .lsm s = .next { t with
      st := m
      il := if s.cfg.typ ∈ [.typ001, .typ002, .typ003] ∧ m.getLsbD 0 = true then false else s.il
      eyr := false }

/-- R106 to R111, R115 to R117: the transfers between AC, the pointer registers and an immediate; no flag
changes, and LYI and SAY alone set EYR. -/
def Obligations.RegisterTransfers : Prop :=
  ∀ (s : State) (i : Nibble),
    exec .lal s = .next { s with ac := s.lr, eyr := false } ∧
    exec .lah s = .next { s with ac := s.hr, eyr := false } ∧
    exec (.lai i) s = .next { s with ac := i, eyr := false } ∧
    exec (.lli i) s = .next { s with lr := i, eyr := false } ∧
    exec (.lhi i) s = .next { s with hr := i, eyr := false } ∧
    exec (.lyi i) s = .next { s with yr := i, eyr := true } ∧
    exec .sal s = .next { s with lr := s.ac, eyr := false } ∧
    exec .sah s = .next { s with hr := s.ac, eyr := false } ∧
    exec .say s = .next { s with yr := s.ac, eyr := true }

/-- R113, R114, R145: SAM stores AC, SSM stores ST and CMM the complement of AC, with Z, in the word at
the effective address; no other word of memory and nothing else changes, EYR neither. (The bits of ST by
log entry 21; the EYR of SAM and SSM by log entry 29.) -/
def Obligations.StoreToMemory : Prop :=
  ∀ s : State, ramPopulated s.cfg s.ea = true →
    (∃ t, exec .sam s = .next t ∧ t = { s with ram := t.ram } ∧ Stores s t s.ea s.ac) ∧
    (∃ t, exec .ssm s = .next t ∧ t = { s with ram := t.ram } ∧
      Stores s t s.ea (flags s.zFlag s.cFlag s.dFlag s.hFlag)) ∧
    (∃ t, exec .cmm s = .next t ∧
      t = { s with ram := t.ram, st := flags (s.ac == 15) s.cFlag s.dFlag s.hFlag } ∧
      Stores s t s.ea (BitVec.ofNat 4 (15 - s.ac.toNat)))

/-- R64: each of the ten memory-writing instructions stops at an address without data memory. (Log entry
14.) -/
def Obligations.StoreOutsideDataMemoryStops : Prop :=
  ∀ s : State, ramPopulated s.cfg s.ea = false →
    ∀ i ∈ [Instr.sam, .ssm, .adm, .acm, .sum, .orm, .eom, .cmm, .icm, .tsm],
      exec i s = .fault (.ramWriteUnpopulated s.ea)

/-- R41, R112, R118, R119: SAR, SYR and CLR write AC, YR and 0 to the plain registers 0, 1, 2 and 4,
whatever the direction of the port (log entry 28), the decode-matrix image to Register 5, the addressed
PLA word (R46) to all of Register 6 under PO60, and the 4-bit value to one half of it under PO61 (log
entry 30); no flag and no other register changes. SYR with R below 4, which no bytes encode (log entry
37), is covered as the other two are. -/
def Obligations.StoreToPort : Prop :=
  ∀ (s : State) (r : BitVec 3) (i : Instr) (v : Nibble),
    (i = .sar r ∧ v = s.ac) ∨ (i = .syr r ∧ v = s.yr) ∨ (i = .clr r ∧ v = 0) →
    (r = 0 → exec i s = .next { s with ports := { s.ports with reg0 := v }, eyr := false }) ∧
    (r = 1 → exec i s = .next { s with ports := { s.ports with reg1 := v }, eyr := false }) ∧
    (r = 2 → exec i s = .next { s with ports := { s.ports with reg2 := v }, eyr := false }) ∧
    (r = 4 → exec i s = .next { s with ports := { s.ports with reg4 := v }, eyr := false }) ∧
    (r = 5 → exec i s = .next { s with
      ports := { s.ports with reg5 := decodeImage s.cfg.dec v }, eyr := false }) ∧
    (r = 6 → ∀ pla, s.cfg.po6 = .po60 pla → ∃ w,
      [pla.pla0, pla.pla1, pla.pla2, pla.pla3, pla.pla4, pla.pla5, pla.pla6, pla.pla7, pla.pla8, pla.pla9,
        pla.plaA, pla.plaB, pla.plaC, pla.plaD, pla.plaE, pla.plaF][v.toNat]? = some w ∧
      exec i s = .next { s with ports := { s.ports with reg6 := w }, eyr := false }) ∧
    (r = 6 → s.cfg.po6 = .po61 → ∃ w : Byte, w.toNat = s.ports.reg6.toNat / 16 * 16 + v.toNat ∧
      exec i s = .next { s with ports := { s.ports with reg6 := w }, eyr := false }) ∧
    (r = 7 → s.cfg.po6 = .po61 → ∃ w : Byte, w.toNat = v.toNat * 16 + s.ports.reg6.toNat % 16 ∧
      exec i s = .next { s with ports := { s.ports with reg6 := w }, eyr := false })

/-! ### Operation -/

/-- R130, R133, R134, R136, R146: ADI, ADA, ACA and ICA leave in AC the sum modulo 16, in C whether it
reached 16, in Z whether its four bits are 0; ACA adds the C of before, ICA adds 1 to memory.
(Unpopulated addresses by log entry 8; the reset EYR of ADI, ADA and ACA by log entry 29.) -/
def Obligations.AdditionToAccumulator : Prop :=
  ∀ (s : State) (n : Nibble), ∃ m t, Reads s m t ∧
    let sums (i : Instr) (u : State) (sum : Nat) : Prop :=
      exec i s = .next { u with
        ac := BitVec.ofNat 4 (sum % 16)
        st := flags (sum % 16 == 0) (decide (16 ≤ sum)) s.dFlag s.hFlag
        eyr := false }
    sums (.adi n) s (s.ac.toNat + n.toNat) ∧ sums .ada t (m.toNat + s.ac.toNat) ∧
      sums .aca t (m.toNat + s.ac.toNat + if s.cFlag then 1 else 0) ∧ sums .ica t (m.toNat + 1)

/-- R130, R135, R137, R147: ADM, ACM and ICM leave the sum modulo 16 in the word at the effective
address, C and Z as in an addition; AC, EYR and every other word are unchanged. (The EYR of ADM by log
entry 29.) -/
def Obligations.AdditionToMemory : Prop :=
  ∀ s : State, ramPopulated s.cfg s.ea = true →
    let m := (Memory.read s.ram s.ea).toNat
    let sums (i : Instr) (sum : Nat) : Prop :=
      ∃ t, exec i s = .next t ∧ Stores s t s.ea (BitVec.ofNat 4 (sum % 16)) ∧
        t = { s with ram := t.ram, st := flags (sum % 16 == 0) (decide (16 ≤ sum)) s.dFlag s.hFlag }
    sums .adm (m + s.ac.toNat) ∧ sums .acm (m + s.ac.toNat + if s.cFlag then 1 else 0) ∧ sums .icm (m + 1)

/-- R131, R138: SUA leaves memory minus AC modulo 16 in AC; C is 1 where there is no borrow.
(Unpopulated addresses by log entry 8.) -/
def Obligations.SubtractionToAccumulator : Prop :=
  ∀ s : State, ∃ m t, Reads s m t ∧
    exec .sua s = .next { t with
      ac := BitVec.ofNat 4 ((m.toNat + 16 - s.ac.toNat) % 16)
      st := flags (m == s.ac) (decide (s.ac.toNat ≤ m.toNat)) s.dFlag s.hFlag
      eyr := false }

/-- R131, R139: SUM leaves memory minus AC modulo 16 in the word at the effective address; AC, EYR and
every other word are unchanged. -/
def Obligations.SubtractionToMemory : Prop :=
  ∀ s : State, ramPopulated s.cfg s.ea = true →
    let m := Memory.read s.ram s.ea
    ∃ t, exec .sum s = .next t ∧
      Stores s t s.ea (BitVec.ofNat 4 ((m.toNat + 16 - s.ac.toNat) % 16)) ∧
      t = { s with
        ram := t.ram, st := flags (m == s.ac) (decide (s.ac.toNat ≤ m.toNat)) s.dFlag s.hFlag }

/-- R132, R140, R142, R144: ORA, EOA and CMA leave OR, exclusive OR and complement, bit by bit, in AC
and set Z from it; C is unchanged, and CMA reads no memory. (Unpopulated addresses by log entry 8.) -/
def Obligations.LogicToAccumulator : Prop :=
  ∀ s : State, ∃ m t, Reads s m t ∧
    let leaves (i : Instr) (u : State) (bit : Nat → Bool) : Prop :=
      ∃ v : Nibble, (∀ k, k < 4 → v.getLsbD k = bit k) ∧
        exec i s = .next { u with
          ac := v, st := flags (v == 0) s.cFlag s.dFlag s.hFlag, eyr := false }
    leaves .ora t (fun k => m.getLsbD k || s.ac.getLsbD k) ∧
      leaves .eoa t (fun k => m.getLsbD k != s.ac.getLsbD k) ∧
      leaves .cma s (fun k => !s.ac.getLsbD k)

/-- R132, R141, R143, R150: ORM and EOM leave OR and exclusive OR, bit by bit, in the word at the effective
address and TSM leaves the word as it is; each sets Z from it. C, AC, EYR and every other word are
unchanged. -/
def Obligations.LogicToMemory : Prop :=
  ∀ s : State, ramPopulated s.cfg s.ea = true →
    let m := Memory.read s.ram s.ea
    let leaves (i : Instr) (bit : Nat → Bool) : Prop :=
      ∃ (v : Nibble) (t : State), (∀ k, k < 4 → v.getLsbD k = bit k) ∧ exec i s = .next t ∧
        Stores s t s.ea v ∧ t = { s with ram := t.ram, st := flags (v == 0) s.cFlag s.dFlag s.hFlag }
    leaves .orm (fun k => m.getLsbD k || s.ac.getLsbD k) ∧
      leaves .eom (fun k => m.getLsbD k != s.ac.getLsbD k) ∧ leaves .tsm (fun k => m.getLsbD k)

/-- R148, R149: ICL and ICH count their register up modulo 16; no flag changes and there is no carry
from LR into HR. (The wrap by log entry 35.) -/
def Obligations.PointerIncrement : Prop :=
  ∀ s : State,
    exec .icl s = .next { s with lr := BitVec.ofNat 4 ((s.lr.toNat + 1) % 16), eyr := false } ∧
      exec .ich s = .next { s with hr := BitVec.ofNat 4 ((s.hr.toNat + 1) % 16), eyr := false }

/-! ### Bit manipulation -/

/-- R163, R165, R167: SBA, CBA and IBA set, clear and invert the designated bit of AC and no other; no
flag changes. (The reset EYR of SBA and CBA by log entry 29.) -/
def Obligations.AccumulatorBits : Prop :=
  ∀ (s : State) (g : BitVec 2),
    let writes (i : Instr) (b : Bool) : Prop :=
      ∃ v : Nibble, (∀ k, k < 4 → v.getLsbD k = if k = g.toNat then b else s.ac.getLsbD k) ∧
        exec i s = .next { s with ac := v, eyr := false }
    writes (.sba g) true ∧ writes (.cba g) false ∧ writes (.iba g) (!s.ac.getLsbD g.toNat)

/-- R161, R162: TBA and TBS set Z to 1 where the designated bit is 0 and to 0 where it is 1; TBS looks
at ST as it was before. No other flag and no register changes. (The reset EYR of TBS by log entry 29.) -/
def Obligations.BitTests : Prop :=
  ∀ (s : State) (g : BitVec 2),
    exec (.tba g) s = .next { s with
      st := flags (!s.ac.getLsbD g.toNat) s.cFlag s.dFlag s.hFlag, eyr := false } ∧
    exec (.tbs g) s = .next { s with
      st := flags (!s.st.getLsbD g.toNat) s.cFlag s.dFlag s.hFlag, eyr := false }

/-- R164, R166, R168, R169, R210: SBS, CBS and IBS set, clear and invert the designated flag and no other;
where H is then 1 under HOLDH, which is TYP001 to TYP003 (R5), the hold begins and a waiting request is
discarded (log entry 25). The reset EYR of SBS is that of log entry 29. -/
def Obligations.StatusBits : Prop :=
  ∀ (s : State) (g : BitVec 2),
    let writes (i : Instr) (b : Bool) : Prop :=
      ∃ v : Nibble, (∀ k, k < 4 → v.getLsbD k = if k = g.toNat then b else s.st.getLsbD k) ∧
        exec i s = .next { s with
          st := v
          il := if s.cfg.typ ∈ [.typ001, .typ002, .typ003] ∧ v.getLsbD 0 = true then false else s.il
          eyr := false }
    writes (.sbs g) true ∧ writes (.cbs g) false ∧ writes (.ibs g) (!s.st.getLsbD g.toNat)

/-! ### Branch, subroutine and the rest -/

/-- R176 to R179, R189: JMP sets PC to its address, BCS where Z = 1, BCC where Z = 0; untaken, PC stays at
the next instruction. EYR is reset, taken or not; NOP resets EYR and does nothing else. -/
def Obligations.BranchesAndNop : Prop :=
  ∀ (s : State) (ap : ProgAddr),
    exec (.jmp ap) s = .next { s with pc := ap, eyr := false } ∧
    (s.zFlag = true → exec (.bcs ap) s = .next { s with pc := ap, eyr := false } ∧
      exec (.bcc ap) s = .next { s with eyr := false }) ∧
    (s.zFlag = false → exec (.bcs ap) s = .next { s with eyr := false } ∧
      exec (.bcc ap) s = .next { s with pc := ap, eyr := false }) ∧
    exec .nop s = .next { s with eyr := false }

/-- R186, R187: CAL saves the address of the next instruction over the one stack entry, sets FSTK and
goes to its address; RTN goes to the saved address and resets FSTK, and keeps the entry. With FSTK = 0
RTN does the same, unless the parameter RTN_EMPTY makes it stop. (The overwriting CAL is log entry 16,
RTN with FSTK = 0 entry 18; that RTN runs although STK was never written is the choice of entry 19.) -/
def Obligations.CallAndReturn : Prop :=
  ∀ (s : State) (ap : ProgAddr),
    exec (.cal ap) s = .next { s with stk := s.pc, fstk := true, pc := ap, eyr := false } ∧
    (s.fstk = true ∨ s.cfg.rtnEmpty = .reload →
      exec .rtn s = .next { s with pc := s.stk, fstk := false, eyr := false }) ∧
    (s.fstk = false → s.cfg.rtnEmpty = .fault → exec .rtn s = .fault .stackEmpty)

/-- R188: a JAC stored at `a` goes to the 16-byte block that holds `a + 2`, at the place AC names; PC is
`a + 1` when the meaning is run. (The wrap modulo 4096 by log entry 27.) -/
def Obligations.JumpByAccumulator : Prop :=
  ∀ (s : State) (a : ProgAddr), s.pc = a + 1 →
    exec .jac s = .next { s with
      pc := BitVec.ofNat 12 ((a.toNat + 2) % 4096 / 16 * 16 + s.ac.toNat), eyr := false }
end

