-- ==== Sys2Proof/Laws/Memory.lean ====
section
/-! SUPPORT. What the memory operations do: reading after a write, and the canonical form kept. -/

namespace Sys2Proof.Machine

variable {w : Nat}

theorem lookupCell_insertCell (m : List (Nat × BitVec w)) (a : Nat) (v : BitVec w) (b : Nat) :
    lookupCell (insertCell m a v) b = if b = a then some v else lookupCell m b := by
  induction m with
  | nil => rfl
  | cons c m ih =>
    obtain ⟨k, u⟩ := c
    by_cases h1 : a < k
    · simp only [insertCell, h1, if_true, lookupCell]
    · by_cases h2 : a = k
      · subst h2
        simp only [insertCell, lt_irrefl, if_false, if_true, lookupCell]
        split <;> simp_all
      · simp only [insertCell, h1, h2, if_false, lookupCell, ih]
        by_cases hb : b = k
        · subst hb
          simp [show ¬b = a from fun h => h2 h.symm]
        · simp [hb]

theorem lookupCell_removeCell (m : List (Nat × BitVec w)) (a b : Nat) :
    lookupCell (removeCell m a) b = if b = a then none else lookupCell m b := by
  induction m with
  | nil => simp [removeCell, lookupCell]
  | cons c m ih =>
    obtain ⟨k, u⟩ := c
    unfold removeCell at ih ⊢
    by_cases hk : k = a
    · subst hk
      simp only [List.filter, bne_self_eq_false, ih, lookupCell]
      split <;> simp_all
    · simp only [List.filter, show (k != a) = true from by simpa using hk, lookupCell, ih]
      by_cases hb : b = k
      · subst hb
        simp [hk]
      · simp [hb]

theorem cellsRise_mono (m : List (Nat × BitVec w)) {low low' : Nat} (h : low' ≤ low)
    (hm : cellsRise low m = true) : cellsRise low' m = true := by
  cases m with
  | nil => rfl
  | cons c m =>
    simp only [cellsRise, Bool.and_eq_true, decide_eq_true_eq] at hm ⊢
    exact ⟨h.trans hm.1, hm.2⟩

theorem cellsRise_insertCell (m : List (Nat × BitVec w)) {low a : Nat} (v : BitVec w) (ha : low ≤ a)
    (hm : cellsRise low m = true) : cellsRise low (insertCell m a v) = true := by
  induction m generalizing low with
  | nil => simp [insertCell, cellsRise, ha]
  | cons c m ih =>
    obtain ⟨k, u⟩ := c
    simp only [cellsRise, Bool.and_eq_true, decide_eq_true_eq] at hm
    by_cases h1 : a < k
    · simp [insertCell, h1, cellsRise, ha, Nat.succ_le_of_lt h1, hm.2]
    · by_cases h2 : a = k
      · subst h2
        simp [insertCell, cellsRise, ha, hm.2]
      · simp only [insertCell, h1, h2, if_false, cellsRise, Bool.and_eq_true, decide_eq_true_eq]
        exact ⟨hm.1, ih (by omega) hm.2⟩

theorem cellsRise_removeCell (m : List (Nat × BitVec w)) {low : Nat} (a : Nat)
    (hm : cellsRise low m = true) : cellsRise low (removeCell m a) = true := by
  induction m generalizing low with
  | nil => rfl
  | cons c m ih =>
    obtain ⟨k, u⟩ := c
    simp only [cellsRise, Bool.and_eq_true, decide_eq_true_eq] at hm
    unfold removeCell at ih ⊢
    by_cases hk : k = a
    · simp only [hk, List.filter, bne_self_eq_false]
      exact cellsRise_mono _ (by omega) (ih hm.2)
    · simp only [List.filter, show (k != a) = true from by simpa using hk, cellsRise, Bool.and_eq_true,
        decide_eq_true_eq]
      exact ⟨hm.1, ih hm.2⟩

/-- Every cell after an insertion is the new one or was there before. -/
theorem mem_insertCell {m : List (Nat × BitVec w)} {a : Nat} {v : BitVec w} {c : Nat × BitVec w}
    (h : c ∈ insertCell m a v) : c = (a, v) ∨ c ∈ m := by
  induction m with
  | nil => simpa [insertCell] using h
  | cons d m ih =>
    obtain ⟨k, u⟩ := d
    simp only [insertCell] at h
    split at h
    · simpa using h
    · split at h
      · rcases List.mem_cons.mp h with h | h
        · exact .inl h
        · exact .inr (List.mem_cons_of_mem _ h)
      · rcases List.mem_cons.mp h with h | h
        · exact .inr (h ▸ List.mem_cons_self)
        · exact (ih h).imp_right (List.mem_cons_of_mem _)

/-- Every cell after a write to data memory is the new one or was there before. -/
theorem Memory.mem_write {m : List (Nat × Nibble)} {a : DataAddr} {v : Nibble} {c : Nat × Nibble}
    (h : c ∈ Memory.write m a v) : c = (a.toNat, v) ∨ c ∈ m := by
  unfold Memory.write at h
  split at h
  · exact .inr (List.mem_of_mem_filter h)
  · exact mem_insertCell h

/-- A write keeps the canonical form of data memory. -/
theorem Memory.wf_write_canonical {m : List (Nat × Nibble)} (a : DataAddr) (v : Nibble)
    (h : Memory.wf m = true) : Memory.wf (Memory.write m a v) = true := by
  simp only [Memory.wf, Bool.and_eq_true, List.all_eq_true] at h ⊢
  refine ⟨?_, fun c hc => ?_⟩
  · unfold Memory.write
    split
    · exact cellsRise_removeCell _ _ h.1
    · exact cellsRise_insertCell _ _ (Nat.zero_le _) h.1
  · unfold Memory.write at hc
    split at hc
    · exact h.2 c (List.mem_of_mem_filter hc)
    · next hv =>
      rcases mem_insertCell hc with rfl | hc
      · exact ⟨by simpa using a.isLt, by simpa using hv⟩
      · exact h.2 c hc

/-- Placing a byte keeps the canonical form of program memory. -/
theorem Rom.wf_write {m : List Host.Cell} (a : ProgAddr) (b : Byte) (h : Rom.wf m = true) :
    Rom.wf (Rom.write m a b) = true := by
  simp only [Rom.wf, Bool.and_eq_true, List.all_eq_true] at h ⊢
  refine ⟨cellsRise_insertCell _ _ (Nat.zero_le _) h.1, fun c hc => ?_⟩
  rcases mem_insertCell hc with rfl | hc
  · simpa using a.isLt
  · exact h.2 c hc

/-- A placed byte reads back, and every other address as before. -/
theorem Rom.read_write (m : List Host.Cell) (a c : ProgAddr) (b : Byte) :
    Rom.read (Rom.write m a b) c = if c = a then some b else Rom.read m c := by
  simp only [Rom.read, Rom.write, lookupCell_insertCell, BitVec.toNat_inj]

/-- After reset both memories are in canonical form. -/
theorem State.reset_memory_wf : Memory.wf State.reset.ram = true ∧ Rom.wf State.reset.rom = true :=
  ⟨rfl, rfl⟩

end Sys2Proof.Machine
end

