-- ==== Sys2Proof/Laws/State.lean ====
section
/-! SUPPORT. One lemma for each field after each register update: an update writes its own field and no
other, so no later proof unfolds a record update. -/

namespace Sys2Proof.Machine

variable (s : State)

@[simp] theorem State.setAc_ac (v : Nibble) : (s.setAc v).ac = v := rfl
@[simp] theorem State.setAc_st (v : Nibble) : (s.setAc v).st = s.st := rfl
@[simp] theorem State.setAc_hr (v : Nibble) : (s.setAc v).hr = s.hr := rfl
@[simp] theorem State.setAc_lr (v : Nibble) : (s.setAc v).lr = s.lr := rfl
@[simp] theorem State.setAc_yr (v : Nibble) : (s.setAc v).yr = s.yr := rfl
@[simp] theorem State.setAc_eyr (v : Nibble) : (s.setAc v).eyr = s.eyr := rfl
@[simp] theorem State.setAc_pc (v : Nibble) : (s.setAc v).pc = s.pc := rfl
@[simp] theorem State.setAc_stk (v : Nibble) : (s.setAc v).stk = s.stk := rfl
@[simp] theorem State.setAc_fstk (v : Nibble) : (s.setAc v).fstk = s.fstk := rfl
@[simp] theorem State.setAc_il (v : Nibble) : (s.setAc v).il = s.il := rfl
@[simp] theorem State.setAc_ir (v : Nibble) : (s.setAc v).ir = s.ir := rfl
@[simp] theorem State.setAc_ports (v : Nibble) : (s.setAc v).ports = s.ports := rfl
@[simp] theorem State.setAc_ram (v : Nibble) : (s.setAc v).ram = s.ram := rfl
@[simp] theorem State.setAc_div (v : Nibble) : (s.setAc v).div = s.div := rfl
@[simp] theorem State.setAc_rom (v : Nibble) : (s.setAc v).rom = s.rom := rfl
@[simp] theorem State.setAc_cfg (v : Nibble) : (s.setAc v).cfg = s.cfg := rfl
@[simp] theorem State.setAc_pins (v : Nibble) : (s.setAc v).pins = s.pins := rfl
@[simp] theorem State.setAc_schedule (v : Nibble) : (s.setAc v).schedule = s.schedule := rfl
@[simp] theorem State.setAc_draws (v : Nibble) : (s.setAc v).draws = s.draws := rfl

@[simp] theorem State.setSt_ac (v : Nibble) : (s.setSt v).ac = s.ac := rfl
@[simp] theorem State.setSt_st (v : Nibble) : (s.setSt v).st = v := rfl
@[simp] theorem State.setSt_hr (v : Nibble) : (s.setSt v).hr = s.hr := rfl
@[simp] theorem State.setSt_lr (v : Nibble) : (s.setSt v).lr = s.lr := rfl
@[simp] theorem State.setSt_yr (v : Nibble) : (s.setSt v).yr = s.yr := rfl
@[simp] theorem State.setSt_eyr (v : Nibble) : (s.setSt v).eyr = s.eyr := rfl
@[simp] theorem State.setSt_pc (v : Nibble) : (s.setSt v).pc = s.pc := rfl
@[simp] theorem State.setSt_stk (v : Nibble) : (s.setSt v).stk = s.stk := rfl
@[simp] theorem State.setSt_fstk (v : Nibble) : (s.setSt v).fstk = s.fstk := rfl
@[simp] theorem State.setSt_il (v : Nibble) : (s.setSt v).il = s.il := rfl
@[simp] theorem State.setSt_ir (v : Nibble) : (s.setSt v).ir = s.ir := rfl
@[simp] theorem State.setSt_ports (v : Nibble) : (s.setSt v).ports = s.ports := rfl
@[simp] theorem State.setSt_ram (v : Nibble) : (s.setSt v).ram = s.ram := rfl
@[simp] theorem State.setSt_div (v : Nibble) : (s.setSt v).div = s.div := rfl
@[simp] theorem State.setSt_rom (v : Nibble) : (s.setSt v).rom = s.rom := rfl
@[simp] theorem State.setSt_cfg (v : Nibble) : (s.setSt v).cfg = s.cfg := rfl
@[simp] theorem State.setSt_pins (v : Nibble) : (s.setSt v).pins = s.pins := rfl
@[simp] theorem State.setSt_schedule (v : Nibble) : (s.setSt v).schedule = s.schedule := rfl
@[simp] theorem State.setSt_draws (v : Nibble) : (s.setSt v).draws = s.draws := rfl

@[simp] theorem State.setHr_ac (v : Nibble) : (s.setHr v).ac = s.ac := rfl
@[simp] theorem State.setHr_st (v : Nibble) : (s.setHr v).st = s.st := rfl
@[simp] theorem State.setHr_hr (v : Nibble) : (s.setHr v).hr = v := rfl
@[simp] theorem State.setHr_lr (v : Nibble) : (s.setHr v).lr = s.lr := rfl
@[simp] theorem State.setHr_yr (v : Nibble) : (s.setHr v).yr = s.yr := rfl
@[simp] theorem State.setHr_eyr (v : Nibble) : (s.setHr v).eyr = s.eyr := rfl
@[simp] theorem State.setHr_pc (v : Nibble) : (s.setHr v).pc = s.pc := rfl
@[simp] theorem State.setHr_stk (v : Nibble) : (s.setHr v).stk = s.stk := rfl
@[simp] theorem State.setHr_fstk (v : Nibble) : (s.setHr v).fstk = s.fstk := rfl
@[simp] theorem State.setHr_il (v : Nibble) : (s.setHr v).il = s.il := rfl
@[simp] theorem State.setHr_ir (v : Nibble) : (s.setHr v).ir = s.ir := rfl
@[simp] theorem State.setHr_ports (v : Nibble) : (s.setHr v).ports = s.ports := rfl
@[simp] theorem State.setHr_ram (v : Nibble) : (s.setHr v).ram = s.ram := rfl
@[simp] theorem State.setHr_div (v : Nibble) : (s.setHr v).div = s.div := rfl
@[simp] theorem State.setHr_rom (v : Nibble) : (s.setHr v).rom = s.rom := rfl
@[simp] theorem State.setHr_cfg (v : Nibble) : (s.setHr v).cfg = s.cfg := rfl
@[simp] theorem State.setHr_pins (v : Nibble) : (s.setHr v).pins = s.pins := rfl
@[simp] theorem State.setHr_schedule (v : Nibble) : (s.setHr v).schedule = s.schedule := rfl
@[simp] theorem State.setHr_draws (v : Nibble) : (s.setHr v).draws = s.draws := rfl

@[simp] theorem State.setLr_ac (v : Nibble) : (s.setLr v).ac = s.ac := rfl
@[simp] theorem State.setLr_st (v : Nibble) : (s.setLr v).st = s.st := rfl
@[simp] theorem State.setLr_hr (v : Nibble) : (s.setLr v).hr = s.hr := rfl
@[simp] theorem State.setLr_lr (v : Nibble) : (s.setLr v).lr = v := rfl
@[simp] theorem State.setLr_yr (v : Nibble) : (s.setLr v).yr = s.yr := rfl
@[simp] theorem State.setLr_eyr (v : Nibble) : (s.setLr v).eyr = s.eyr := rfl
@[simp] theorem State.setLr_pc (v : Nibble) : (s.setLr v).pc = s.pc := rfl
@[simp] theorem State.setLr_stk (v : Nibble) : (s.setLr v).stk = s.stk := rfl
@[simp] theorem State.setLr_fstk (v : Nibble) : (s.setLr v).fstk = s.fstk := rfl
@[simp] theorem State.setLr_il (v : Nibble) : (s.setLr v).il = s.il := rfl
@[simp] theorem State.setLr_ir (v : Nibble) : (s.setLr v).ir = s.ir := rfl
@[simp] theorem State.setLr_ports (v : Nibble) : (s.setLr v).ports = s.ports := rfl
@[simp] theorem State.setLr_ram (v : Nibble) : (s.setLr v).ram = s.ram := rfl
@[simp] theorem State.setLr_div (v : Nibble) : (s.setLr v).div = s.div := rfl
@[simp] theorem State.setLr_rom (v : Nibble) : (s.setLr v).rom = s.rom := rfl
@[simp] theorem State.setLr_cfg (v : Nibble) : (s.setLr v).cfg = s.cfg := rfl
@[simp] theorem State.setLr_pins (v : Nibble) : (s.setLr v).pins = s.pins := rfl
@[simp] theorem State.setLr_schedule (v : Nibble) : (s.setLr v).schedule = s.schedule := rfl
@[simp] theorem State.setLr_draws (v : Nibble) : (s.setLr v).draws = s.draws := rfl

@[simp] theorem State.setYr_ac (v : Nibble) : (s.setYr v).ac = s.ac := rfl
@[simp] theorem State.setYr_st (v : Nibble) : (s.setYr v).st = s.st := rfl
@[simp] theorem State.setYr_hr (v : Nibble) : (s.setYr v).hr = s.hr := rfl
@[simp] theorem State.setYr_lr (v : Nibble) : (s.setYr v).lr = s.lr := rfl
@[simp] theorem State.setYr_yr (v : Nibble) : (s.setYr v).yr = v := rfl
@[simp] theorem State.setYr_eyr (v : Nibble) : (s.setYr v).eyr = s.eyr := rfl
@[simp] theorem State.setYr_pc (v : Nibble) : (s.setYr v).pc = s.pc := rfl
@[simp] theorem State.setYr_stk (v : Nibble) : (s.setYr v).stk = s.stk := rfl
@[simp] theorem State.setYr_fstk (v : Nibble) : (s.setYr v).fstk = s.fstk := rfl
@[simp] theorem State.setYr_il (v : Nibble) : (s.setYr v).il = s.il := rfl
@[simp] theorem State.setYr_ir (v : Nibble) : (s.setYr v).ir = s.ir := rfl
@[simp] theorem State.setYr_ports (v : Nibble) : (s.setYr v).ports = s.ports := rfl
@[simp] theorem State.setYr_ram (v : Nibble) : (s.setYr v).ram = s.ram := rfl
@[simp] theorem State.setYr_div (v : Nibble) : (s.setYr v).div = s.div := rfl
@[simp] theorem State.setYr_rom (v : Nibble) : (s.setYr v).rom = s.rom := rfl
@[simp] theorem State.setYr_cfg (v : Nibble) : (s.setYr v).cfg = s.cfg := rfl
@[simp] theorem State.setYr_pins (v : Nibble) : (s.setYr v).pins = s.pins := rfl
@[simp] theorem State.setYr_schedule (v : Nibble) : (s.setYr v).schedule = s.schedule := rfl
@[simp] theorem State.setYr_draws (v : Nibble) : (s.setYr v).draws = s.draws := rfl

@[simp] theorem State.setEyr_ac (v : Bool) : (s.setEyr v).ac = s.ac := rfl
@[simp] theorem State.setEyr_st (v : Bool) : (s.setEyr v).st = s.st := rfl
@[simp] theorem State.setEyr_hr (v : Bool) : (s.setEyr v).hr = s.hr := rfl
@[simp] theorem State.setEyr_lr (v : Bool) : (s.setEyr v).lr = s.lr := rfl
@[simp] theorem State.setEyr_yr (v : Bool) : (s.setEyr v).yr = s.yr := rfl
@[simp] theorem State.setEyr_eyr (v : Bool) : (s.setEyr v).eyr = v := rfl
@[simp] theorem State.setEyr_pc (v : Bool) : (s.setEyr v).pc = s.pc := rfl
@[simp] theorem State.setEyr_stk (v : Bool) : (s.setEyr v).stk = s.stk := rfl
@[simp] theorem State.setEyr_fstk (v : Bool) : (s.setEyr v).fstk = s.fstk := rfl
@[simp] theorem State.setEyr_il (v : Bool) : (s.setEyr v).il = s.il := rfl
@[simp] theorem State.setEyr_ir (v : Bool) : (s.setEyr v).ir = s.ir := rfl
@[simp] theorem State.setEyr_ports (v : Bool) : (s.setEyr v).ports = s.ports := rfl
@[simp] theorem State.setEyr_ram (v : Bool) : (s.setEyr v).ram = s.ram := rfl
@[simp] theorem State.setEyr_div (v : Bool) : (s.setEyr v).div = s.div := rfl
@[simp] theorem State.setEyr_rom (v : Bool) : (s.setEyr v).rom = s.rom := rfl
@[simp] theorem State.setEyr_cfg (v : Bool) : (s.setEyr v).cfg = s.cfg := rfl
@[simp] theorem State.setEyr_pins (v : Bool) : (s.setEyr v).pins = s.pins := rfl
@[simp] theorem State.setEyr_schedule (v : Bool) : (s.setEyr v).schedule = s.schedule := rfl
@[simp] theorem State.setEyr_draws (v : Bool) : (s.setEyr v).draws = s.draws := rfl

@[simp] theorem State.setPc_ac (v : ProgAddr) : (s.setPc v).ac = s.ac := rfl
@[simp] theorem State.setPc_st (v : ProgAddr) : (s.setPc v).st = s.st := rfl
@[simp] theorem State.setPc_hr (v : ProgAddr) : (s.setPc v).hr = s.hr := rfl
@[simp] theorem State.setPc_lr (v : ProgAddr) : (s.setPc v).lr = s.lr := rfl
@[simp] theorem State.setPc_yr (v : ProgAddr) : (s.setPc v).yr = s.yr := rfl
@[simp] theorem State.setPc_eyr (v : ProgAddr) : (s.setPc v).eyr = s.eyr := rfl
@[simp] theorem State.setPc_pc (v : ProgAddr) : (s.setPc v).pc = v := rfl
@[simp] theorem State.setPc_stk (v : ProgAddr) : (s.setPc v).stk = s.stk := rfl
@[simp] theorem State.setPc_fstk (v : ProgAddr) : (s.setPc v).fstk = s.fstk := rfl
@[simp] theorem State.setPc_il (v : ProgAddr) : (s.setPc v).il = s.il := rfl
@[simp] theorem State.setPc_ir (v : ProgAddr) : (s.setPc v).ir = s.ir := rfl
@[simp] theorem State.setPc_ports (v : ProgAddr) : (s.setPc v).ports = s.ports := rfl
@[simp] theorem State.setPc_ram (v : ProgAddr) : (s.setPc v).ram = s.ram := rfl
@[simp] theorem State.setPc_div (v : ProgAddr) : (s.setPc v).div = s.div := rfl
@[simp] theorem State.setPc_rom (v : ProgAddr) : (s.setPc v).rom = s.rom := rfl
@[simp] theorem State.setPc_cfg (v : ProgAddr) : (s.setPc v).cfg = s.cfg := rfl
@[simp] theorem State.setPc_pins (v : ProgAddr) : (s.setPc v).pins = s.pins := rfl
@[simp] theorem State.setPc_schedule (v : ProgAddr) : (s.setPc v).schedule = s.schedule := rfl
@[simp] theorem State.setPc_draws (v : ProgAddr) : (s.setPc v).draws = s.draws := rfl

@[simp] theorem State.setStk_ac (v : ProgAddr) : (s.setStk v).ac = s.ac := rfl
@[simp] theorem State.setStk_st (v : ProgAddr) : (s.setStk v).st = s.st := rfl
@[simp] theorem State.setStk_hr (v : ProgAddr) : (s.setStk v).hr = s.hr := rfl
@[simp] theorem State.setStk_lr (v : ProgAddr) : (s.setStk v).lr = s.lr := rfl
@[simp] theorem State.setStk_yr (v : ProgAddr) : (s.setStk v).yr = s.yr := rfl
@[simp] theorem State.setStk_eyr (v : ProgAddr) : (s.setStk v).eyr = s.eyr := rfl
@[simp] theorem State.setStk_pc (v : ProgAddr) : (s.setStk v).pc = s.pc := rfl
@[simp] theorem State.setStk_stk (v : ProgAddr) : (s.setStk v).stk = v := rfl
@[simp] theorem State.setStk_fstk (v : ProgAddr) : (s.setStk v).fstk = s.fstk := rfl
@[simp] theorem State.setStk_il (v : ProgAddr) : (s.setStk v).il = s.il := rfl
@[simp] theorem State.setStk_ir (v : ProgAddr) : (s.setStk v).ir = s.ir := rfl
@[simp] theorem State.setStk_ports (v : ProgAddr) : (s.setStk v).ports = s.ports := rfl
@[simp] theorem State.setStk_ram (v : ProgAddr) : (s.setStk v).ram = s.ram := rfl
@[simp] theorem State.setStk_div (v : ProgAddr) : (s.setStk v).div = s.div := rfl
@[simp] theorem State.setStk_rom (v : ProgAddr) : (s.setStk v).rom = s.rom := rfl
@[simp] theorem State.setStk_cfg (v : ProgAddr) : (s.setStk v).cfg = s.cfg := rfl
@[simp] theorem State.setStk_pins (v : ProgAddr) : (s.setStk v).pins = s.pins := rfl
@[simp] theorem State.setStk_schedule (v : ProgAddr) : (s.setStk v).schedule = s.schedule := rfl
@[simp] theorem State.setStk_draws (v : ProgAddr) : (s.setStk v).draws = s.draws := rfl

@[simp] theorem State.setFstk_ac (v : Bool) : (s.setFstk v).ac = s.ac := rfl
@[simp] theorem State.setFstk_st (v : Bool) : (s.setFstk v).st = s.st := rfl
@[simp] theorem State.setFstk_hr (v : Bool) : (s.setFstk v).hr = s.hr := rfl
@[simp] theorem State.setFstk_lr (v : Bool) : (s.setFstk v).lr = s.lr := rfl
@[simp] theorem State.setFstk_yr (v : Bool) : (s.setFstk v).yr = s.yr := rfl
@[simp] theorem State.setFstk_eyr (v : Bool) : (s.setFstk v).eyr = s.eyr := rfl
@[simp] theorem State.setFstk_pc (v : Bool) : (s.setFstk v).pc = s.pc := rfl
@[simp] theorem State.setFstk_stk (v : Bool) : (s.setFstk v).stk = s.stk := rfl
@[simp] theorem State.setFstk_fstk (v : Bool) : (s.setFstk v).fstk = v := rfl
@[simp] theorem State.setFstk_il (v : Bool) : (s.setFstk v).il = s.il := rfl
@[simp] theorem State.setFstk_ir (v : Bool) : (s.setFstk v).ir = s.ir := rfl
@[simp] theorem State.setFstk_ports (v : Bool) : (s.setFstk v).ports = s.ports := rfl
@[simp] theorem State.setFstk_ram (v : Bool) : (s.setFstk v).ram = s.ram := rfl
@[simp] theorem State.setFstk_div (v : Bool) : (s.setFstk v).div = s.div := rfl
@[simp] theorem State.setFstk_rom (v : Bool) : (s.setFstk v).rom = s.rom := rfl
@[simp] theorem State.setFstk_cfg (v : Bool) : (s.setFstk v).cfg = s.cfg := rfl
@[simp] theorem State.setFstk_pins (v : Bool) : (s.setFstk v).pins = s.pins := rfl
@[simp] theorem State.setFstk_schedule (v : Bool) : (s.setFstk v).schedule = s.schedule := rfl
@[simp] theorem State.setFstk_draws (v : Bool) : (s.setFstk v).draws = s.draws := rfl

@[simp] theorem State.setIl_ac (v : Bool) : (s.setIl v).ac = s.ac := rfl
@[simp] theorem State.setIl_st (v : Bool) : (s.setIl v).st = s.st := rfl
@[simp] theorem State.setIl_hr (v : Bool) : (s.setIl v).hr = s.hr := rfl
@[simp] theorem State.setIl_lr (v : Bool) : (s.setIl v).lr = s.lr := rfl
@[simp] theorem State.setIl_yr (v : Bool) : (s.setIl v).yr = s.yr := rfl
@[simp] theorem State.setIl_eyr (v : Bool) : (s.setIl v).eyr = s.eyr := rfl
@[simp] theorem State.setIl_pc (v : Bool) : (s.setIl v).pc = s.pc := rfl
@[simp] theorem State.setIl_stk (v : Bool) : (s.setIl v).stk = s.stk := rfl
@[simp] theorem State.setIl_fstk (v : Bool) : (s.setIl v).fstk = s.fstk := rfl
@[simp] theorem State.setIl_il (v : Bool) : (s.setIl v).il = v := rfl
@[simp] theorem State.setIl_ir (v : Bool) : (s.setIl v).ir = s.ir := rfl
@[simp] theorem State.setIl_ports (v : Bool) : (s.setIl v).ports = s.ports := rfl
@[simp] theorem State.setIl_ram (v : Bool) : (s.setIl v).ram = s.ram := rfl
@[simp] theorem State.setIl_div (v : Bool) : (s.setIl v).div = s.div := rfl
@[simp] theorem State.setIl_rom (v : Bool) : (s.setIl v).rom = s.rom := rfl
@[simp] theorem State.setIl_cfg (v : Bool) : (s.setIl v).cfg = s.cfg := rfl
@[simp] theorem State.setIl_pins (v : Bool) : (s.setIl v).pins = s.pins := rfl
@[simp] theorem State.setIl_schedule (v : Bool) : (s.setIl v).schedule = s.schedule := rfl
@[simp] theorem State.setIl_draws (v : Bool) : (s.setIl v).draws = s.draws := rfl

@[simp] theorem State.setIr_ac (v : Byte) : (s.setIr v).ac = s.ac := rfl
@[simp] theorem State.setIr_st (v : Byte) : (s.setIr v).st = s.st := rfl
@[simp] theorem State.setIr_hr (v : Byte) : (s.setIr v).hr = s.hr := rfl
@[simp] theorem State.setIr_lr (v : Byte) : (s.setIr v).lr = s.lr := rfl
@[simp] theorem State.setIr_yr (v : Byte) : (s.setIr v).yr = s.yr := rfl
@[simp] theorem State.setIr_eyr (v : Byte) : (s.setIr v).eyr = s.eyr := rfl
@[simp] theorem State.setIr_pc (v : Byte) : (s.setIr v).pc = s.pc := rfl
@[simp] theorem State.setIr_stk (v : Byte) : (s.setIr v).stk = s.stk := rfl
@[simp] theorem State.setIr_fstk (v : Byte) : (s.setIr v).fstk = s.fstk := rfl
@[simp] theorem State.setIr_il (v : Byte) : (s.setIr v).il = s.il := rfl
@[simp] theorem State.setIr_ir (v : Byte) : (s.setIr v).ir = v := rfl
@[simp] theorem State.setIr_ports (v : Byte) : (s.setIr v).ports = s.ports := rfl
@[simp] theorem State.setIr_ram (v : Byte) : (s.setIr v).ram = s.ram := rfl
@[simp] theorem State.setIr_div (v : Byte) : (s.setIr v).div = s.div := rfl
@[simp] theorem State.setIr_rom (v : Byte) : (s.setIr v).rom = s.rom := rfl
@[simp] theorem State.setIr_cfg (v : Byte) : (s.setIr v).cfg = s.cfg := rfl
@[simp] theorem State.setIr_pins (v : Byte) : (s.setIr v).pins = s.pins := rfl
@[simp] theorem State.setIr_schedule (v : Byte) : (s.setIr v).schedule = s.schedule := rfl
@[simp] theorem State.setIr_draws (v : Byte) : (s.setIr v).draws = s.draws := rfl

@[simp] theorem State.setPorts_ac (v : PortRegs) : (s.setPorts v).ac = s.ac := rfl
@[simp] theorem State.setPorts_st (v : PortRegs) : (s.setPorts v).st = s.st := rfl
@[simp] theorem State.setPorts_hr (v : PortRegs) : (s.setPorts v).hr = s.hr := rfl
@[simp] theorem State.setPorts_lr (v : PortRegs) : (s.setPorts v).lr = s.lr := rfl
@[simp] theorem State.setPorts_yr (v : PortRegs) : (s.setPorts v).yr = s.yr := rfl
@[simp] theorem State.setPorts_eyr (v : PortRegs) : (s.setPorts v).eyr = s.eyr := rfl
@[simp] theorem State.setPorts_pc (v : PortRegs) : (s.setPorts v).pc = s.pc := rfl
@[simp] theorem State.setPorts_stk (v : PortRegs) : (s.setPorts v).stk = s.stk := rfl
@[simp] theorem State.setPorts_fstk (v : PortRegs) : (s.setPorts v).fstk = s.fstk := rfl
@[simp] theorem State.setPorts_il (v : PortRegs) : (s.setPorts v).il = s.il := rfl
@[simp] theorem State.setPorts_ir (v : PortRegs) : (s.setPorts v).ir = s.ir := rfl
@[simp] theorem State.setPorts_ports (v : PortRegs) : (s.setPorts v).ports = v := rfl
@[simp] theorem State.setPorts_ram (v : PortRegs) : (s.setPorts v).ram = s.ram := rfl
@[simp] theorem State.setPorts_div (v : PortRegs) : (s.setPorts v).div = s.div := rfl
@[simp] theorem State.setPorts_rom (v : PortRegs) : (s.setPorts v).rom = s.rom := rfl
@[simp] theorem State.setPorts_cfg (v : PortRegs) : (s.setPorts v).cfg = s.cfg := rfl
@[simp] theorem State.setPorts_pins (v : PortRegs) : (s.setPorts v).pins = s.pins := rfl
@[simp] theorem State.setPorts_schedule (v : PortRegs) : (s.setPorts v).schedule = s.schedule := rfl
@[simp] theorem State.setPorts_draws (v : PortRegs) : (s.setPorts v).draws = s.draws := rfl

@[simp] theorem State.setRam_ac (v : List (Nat × Nibble)) : (s.setRam v).ac = s.ac := rfl
@[simp] theorem State.setRam_st (v : List (Nat × Nibble)) : (s.setRam v).st = s.st := rfl
@[simp] theorem State.setRam_hr (v : List (Nat × Nibble)) : (s.setRam v).hr = s.hr := rfl
@[simp] theorem State.setRam_lr (v : List (Nat × Nibble)) : (s.setRam v).lr = s.lr := rfl
@[simp] theorem State.setRam_yr (v : List (Nat × Nibble)) : (s.setRam v).yr = s.yr := rfl
@[simp] theorem State.setRam_eyr (v : List (Nat × Nibble)) : (s.setRam v).eyr = s.eyr := rfl
@[simp] theorem State.setRam_pc (v : List (Nat × Nibble)) : (s.setRam v).pc = s.pc := rfl
@[simp] theorem State.setRam_stk (v : List (Nat × Nibble)) : (s.setRam v).stk = s.stk := rfl
@[simp] theorem State.setRam_fstk (v : List (Nat × Nibble)) : (s.setRam v).fstk = s.fstk := rfl
@[simp] theorem State.setRam_il (v : List (Nat × Nibble)) : (s.setRam v).il = s.il := rfl
@[simp] theorem State.setRam_ir (v : List (Nat × Nibble)) : (s.setRam v).ir = s.ir := rfl
@[simp] theorem State.setRam_ports (v : List (Nat × Nibble)) : (s.setRam v).ports = s.ports := rfl
@[simp] theorem State.setRam_ram (v : List (Nat × Nibble)) : (s.setRam v).ram = v := rfl
@[simp] theorem State.setRam_div (v : List (Nat × Nibble)) : (s.setRam v).div = s.div := rfl
@[simp] theorem State.setRam_rom (v : List (Nat × Nibble)) : (s.setRam v).rom = s.rom := rfl
@[simp] theorem State.setRam_cfg (v : List (Nat × Nibble)) : (s.setRam v).cfg = s.cfg := rfl
@[simp] theorem State.setRam_pins (v : List (Nat × Nibble)) : (s.setRam v).pins = s.pins := rfl
@[simp] theorem State.setRam_schedule (v : List (Nat × Nibble)) : (s.setRam v).schedule = s.schedule := rfl
@[simp] theorem State.setRam_draws (v : List (Nat × Nibble)) : (s.setRam v).draws = s.draws := rfl

@[simp] theorem State.setDiv_ac (v : BitVec 16) : (s.setDiv v).ac = s.ac := rfl
@[simp] theorem State.setDiv_st (v : BitVec 16) : (s.setDiv v).st = s.st := rfl
@[simp] theorem State.setDiv_hr (v : BitVec 16) : (s.setDiv v).hr = s.hr := rfl
@[simp] theorem State.setDiv_lr (v : BitVec 16) : (s.setDiv v).lr = s.lr := rfl
@[simp] theorem State.setDiv_yr (v : BitVec 16) : (s.setDiv v).yr = s.yr := rfl
@[simp] theorem State.setDiv_eyr (v : BitVec 16) : (s.setDiv v).eyr = s.eyr := rfl
@[simp] theorem State.setDiv_pc (v : BitVec 16) : (s.setDiv v).pc = s.pc := rfl
@[simp] theorem State.setDiv_stk (v : BitVec 16) : (s.setDiv v).stk = s.stk := rfl
@[simp] theorem State.setDiv_fstk (v : BitVec 16) : (s.setDiv v).fstk = s.fstk := rfl
@[simp] theorem State.setDiv_il (v : BitVec 16) : (s.setDiv v).il = s.il := rfl
@[simp] theorem State.setDiv_ir (v : BitVec 16) : (s.setDiv v).ir = s.ir := rfl
@[simp] theorem State.setDiv_ports (v : BitVec 16) : (s.setDiv v).ports = s.ports := rfl
@[simp] theorem State.setDiv_ram (v : BitVec 16) : (s.setDiv v).ram = s.ram := rfl
@[simp] theorem State.setDiv_div (v : BitVec 16) : (s.setDiv v).div = v := rfl
@[simp] theorem State.setDiv_rom (v : BitVec 16) : (s.setDiv v).rom = s.rom := rfl
@[simp] theorem State.setDiv_cfg (v : BitVec 16) : (s.setDiv v).cfg = s.cfg := rfl
@[simp] theorem State.setDiv_pins (v : BitVec 16) : (s.setDiv v).pins = s.pins := rfl
@[simp] theorem State.setDiv_schedule (v : BitVec 16) : (s.setDiv v).schedule = s.schedule := rfl
@[simp] theorem State.setDiv_draws (v : BitVec 16) : (s.setDiv v).draws = s.draws := rfl

@[simp] theorem State.setRom_ac (v : List Host.Cell) : (s.setRom v).ac = s.ac := rfl
@[simp] theorem State.setRom_st (v : List Host.Cell) : (s.setRom v).st = s.st := rfl
@[simp] theorem State.setRom_hr (v : List Host.Cell) : (s.setRom v).hr = s.hr := rfl
@[simp] theorem State.setRom_lr (v : List Host.Cell) : (s.setRom v).lr = s.lr := rfl
@[simp] theorem State.setRom_yr (v : List Host.Cell) : (s.setRom v).yr = s.yr := rfl
@[simp] theorem State.setRom_eyr (v : List Host.Cell) : (s.setRom v).eyr = s.eyr := rfl
@[simp] theorem State.setRom_pc (v : List Host.Cell) : (s.setRom v).pc = s.pc := rfl
@[simp] theorem State.setRom_stk (v : List Host.Cell) : (s.setRom v).stk = s.stk := rfl
@[simp] theorem State.setRom_fstk (v : List Host.Cell) : (s.setRom v).fstk = s.fstk := rfl
@[simp] theorem State.setRom_il (v : List Host.Cell) : (s.setRom v).il = s.il := rfl
@[simp] theorem State.setRom_ir (v : List Host.Cell) : (s.setRom v).ir = s.ir := rfl
@[simp] theorem State.setRom_ports (v : List Host.Cell) : (s.setRom v).ports = s.ports := rfl
@[simp] theorem State.setRom_ram (v : List Host.Cell) : (s.setRom v).ram = s.ram := rfl
@[simp] theorem State.setRom_div (v : List Host.Cell) : (s.setRom v).div = s.div := rfl
@[simp] theorem State.setRom_rom (v : List Host.Cell) : (s.setRom v).rom = v := rfl
@[simp] theorem State.setRom_cfg (v : List Host.Cell) : (s.setRom v).cfg = s.cfg := rfl
@[simp] theorem State.setRom_pins (v : List Host.Cell) : (s.setRom v).pins = s.pins := rfl
@[simp] theorem State.setRom_schedule (v : List Host.Cell) : (s.setRom v).schedule = s.schedule := rfl
@[simp] theorem State.setRom_draws (v : List Host.Cell) : (s.setRom v).draws = s.draws := rfl

@[simp] theorem State.setPins_ac (v : Pins) : (s.setPins v).ac = s.ac := rfl
@[simp] theorem State.setPins_st (v : Pins) : (s.setPins v).st = s.st := rfl
@[simp] theorem State.setPins_hr (v : Pins) : (s.setPins v).hr = s.hr := rfl
@[simp] theorem State.setPins_lr (v : Pins) : (s.setPins v).lr = s.lr := rfl
@[simp] theorem State.setPins_yr (v : Pins) : (s.setPins v).yr = s.yr := rfl
@[simp] theorem State.setPins_eyr (v : Pins) : (s.setPins v).eyr = s.eyr := rfl
@[simp] theorem State.setPins_pc (v : Pins) : (s.setPins v).pc = s.pc := rfl
@[simp] theorem State.setPins_stk (v : Pins) : (s.setPins v).stk = s.stk := rfl
@[simp] theorem State.setPins_fstk (v : Pins) : (s.setPins v).fstk = s.fstk := rfl
@[simp] theorem State.setPins_il (v : Pins) : (s.setPins v).il = s.il := rfl
@[simp] theorem State.setPins_ir (v : Pins) : (s.setPins v).ir = s.ir := rfl
@[simp] theorem State.setPins_ports (v : Pins) : (s.setPins v).ports = s.ports := rfl
@[simp] theorem State.setPins_ram (v : Pins) : (s.setPins v).ram = s.ram := rfl
@[simp] theorem State.setPins_div (v : Pins) : (s.setPins v).div = s.div := rfl
@[simp] theorem State.setPins_rom (v : Pins) : (s.setPins v).rom = s.rom := rfl
@[simp] theorem State.setPins_cfg (v : Pins) : (s.setPins v).cfg = s.cfg := rfl
@[simp] theorem State.setPins_pins (v : Pins) : (s.setPins v).pins = v := rfl
@[simp] theorem State.setPins_schedule (v : Pins) : (s.setPins v).schedule = s.schedule := rfl
@[simp] theorem State.setPins_draws (v : Pins) : (s.setPins v).draws = s.draws := rfl

@[simp] theorem State.setSchedule_ac (v : List Turn) : (s.setSchedule v).ac = s.ac := rfl
@[simp] theorem State.setSchedule_st (v : List Turn) : (s.setSchedule v).st = s.st := rfl
@[simp] theorem State.setSchedule_hr (v : List Turn) : (s.setSchedule v).hr = s.hr := rfl
@[simp] theorem State.setSchedule_lr (v : List Turn) : (s.setSchedule v).lr = s.lr := rfl
@[simp] theorem State.setSchedule_yr (v : List Turn) : (s.setSchedule v).yr = s.yr := rfl
@[simp] theorem State.setSchedule_eyr (v : List Turn) : (s.setSchedule v).eyr = s.eyr := rfl
@[simp] theorem State.setSchedule_pc (v : List Turn) : (s.setSchedule v).pc = s.pc := rfl
@[simp] theorem State.setSchedule_stk (v : List Turn) : (s.setSchedule v).stk = s.stk := rfl
@[simp] theorem State.setSchedule_fstk (v : List Turn) : (s.setSchedule v).fstk = s.fstk := rfl
@[simp] theorem State.setSchedule_il (v : List Turn) : (s.setSchedule v).il = s.il := rfl
@[simp] theorem State.setSchedule_ir (v : List Turn) : (s.setSchedule v).ir = s.ir := rfl
@[simp] theorem State.setSchedule_ports (v : List Turn) : (s.setSchedule v).ports = s.ports := rfl
@[simp] theorem State.setSchedule_ram (v : List Turn) : (s.setSchedule v).ram = s.ram := rfl
@[simp] theorem State.setSchedule_div (v : List Turn) : (s.setSchedule v).div = s.div := rfl
@[simp] theorem State.setSchedule_rom (v : List Turn) : (s.setSchedule v).rom = s.rom := rfl
@[simp] theorem State.setSchedule_cfg (v : List Turn) : (s.setSchedule v).cfg = s.cfg := rfl
@[simp] theorem State.setSchedule_pins (v : List Turn) : (s.setSchedule v).pins = s.pins := rfl
@[simp] theorem State.setSchedule_schedule (v : List Turn) : (s.setSchedule v).schedule = v := rfl
@[simp] theorem State.setSchedule_draws (v : List Turn) : (s.setSchedule v).draws = s.draws := rfl

@[simp] theorem State.setDraws_ac (v : Nat) : (s.setDraws v).ac = s.ac := rfl
@[simp] theorem State.setDraws_st (v : Nat) : (s.setDraws v).st = s.st := rfl
@[simp] theorem State.setDraws_hr (v : Nat) : (s.setDraws v).hr = s.hr := rfl
@[simp] theorem State.setDraws_lr (v : Nat) : (s.setDraws v).lr = s.lr := rfl
@[simp] theorem State.setDraws_yr (v : Nat) : (s.setDraws v).yr = s.yr := rfl
@[simp] theorem State.setDraws_eyr (v : Nat) : (s.setDraws v).eyr = s.eyr := rfl
@[simp] theorem State.setDraws_pc (v : Nat) : (s.setDraws v).pc = s.pc := rfl
@[simp] theorem State.setDraws_stk (v : Nat) : (s.setDraws v).stk = s.stk := rfl
@[simp] theorem State.setDraws_fstk (v : Nat) : (s.setDraws v).fstk = s.fstk := rfl
@[simp] theorem State.setDraws_il (v : Nat) : (s.setDraws v).il = s.il := rfl
@[simp] theorem State.setDraws_ir (v : Nat) : (s.setDraws v).ir = s.ir := rfl
@[simp] theorem State.setDraws_ports (v : Nat) : (s.setDraws v).ports = s.ports := rfl
@[simp] theorem State.setDraws_ram (v : Nat) : (s.setDraws v).ram = s.ram := rfl
@[simp] theorem State.setDraws_div (v : Nat) : (s.setDraws v).div = s.div := rfl
@[simp] theorem State.setDraws_rom (v : Nat) : (s.setDraws v).rom = s.rom := rfl
@[simp] theorem State.setDraws_cfg (v : Nat) : (s.setDraws v).cfg = s.cfg := rfl
@[simp] theorem State.setDraws_pins (v : Nat) : (s.setDraws v).pins = s.pins := rfl
@[simp] theorem State.setDraws_schedule (v : Nat) : (s.setDraws v).schedule = s.schedule := rfl
@[simp] theorem State.setDraws_draws (v : Nat) : (s.setDraws v).draws = v := rfl

end Sys2Proof.Machine
end

