-- ==== Sys2Proof/Laws/Ops.lean ====
section
/-! SUPPORT. For each shared operation, once, everything it can do; proofs about an instruction or a step
cite these instead of unfolding the operation. -/

namespace Sys2Proof.Machine

/-! ### Data memory -/

/-- A read of a populated word gives the word and changes nothing. -/
theorem State.memRead_populated {s : State} {a : DataAddr} (h : ramPopulated s.cfg a = true) :
    s.memRead a = (Memory.read s.ram a, s) := if_pos h

/-- A read where no memory is gives a free value and counts it. -/
theorem State.memRead_unpopulated {s : State} {a : DataAddr} (h : ramPopulated s.cfg a = false) :
    s.memRead a = (Config.undefinedRamWord s.draws, s.countDraw) := if_neg (by simp [h])

/-- After a read the state is the same but for the count of free values. -/
theorem State.memRead_state (s : State) (a : DataAddr) :
    (s.memRead a).2 = s ∨ (s.memRead a).2 = s.countDraw := by
  unfold State.memRead
  split
  · exact .inl rfl
  · exact .inr rfl

/-- A write that answers a next state changed the one word, which is populated. -/
theorem State.memWrite_next {s t : State} {a : DataAddr} {v : Nibble} (h : s.memWrite a v = .next t) :
    ramPopulated s.cfg a = true ∧ t = s.setRam (Memory.write s.ram a v) := by
  unfold State.memWrite at h
  split at h
  · next hp => exact ⟨hp, by injection h with h; exact h.symm⟩
  · cases h

theorem State.memWrite_populated {s : State} {a : DataAddr} (v : Nibble)
    (h : ramPopulated s.cfg a = true) : s.memWrite a v = .next (s.setRam (Memory.write s.ram a v)) :=
  if_pos h

theorem State.memWrite_unpopulated {s : State} {a : DataAddr} (v : Nibble)
    (h : ramPopulated s.cfg a = false) : s.memWrite a v = .fault (.ramWriteUnpopulated a) :=
  if_neg (by simp [h])

/-! ### Ports -/

/-- After a port read the state is the same but for the count of free values. -/
theorem State.portRead_ok {s t : State} {r : BitVec 3} {v : Nibble} (h : s.portRead r = .ok (v, t)) :
    t = s ∨ t = s.countDraw := by
  unfold State.portRead at h
  split at h
  · split at h <;> cases h
    · exact .inr rfl
    · exact .inl rfl
  all_goals first | (cases h; exact .inl rfl) | cases h

/-- A port write that answers a next state changed port registers and reset EYR. -/
theorem State.portWrite_next {s t : State} {r : BitVec 3} {v : Nibble} (h : s.portWrite r v = .next t) :
    ∃ p, portWriteRegs s.cfg s.ports r v = .ok p ∧ t = (s.setPorts p).setEyr false := by
  unfold State.portWrite at h
  split at h
  · next p hp => exact ⟨p, hp, by injection h with h; exact h.symm⟩
  · cases h

/-- A load from a port that answers a next state applied its continuation. -/
theorem withPort_next {r : Except Fault (Nibble × State)} {k : Nibble → State → State} {t : State}
    (h : withPort r k = .next t) : ∃ v u, r = .ok (v, u) ∧ t = k v u := by
  unfold withPort at h
  split at h
  · next v u => exact ⟨v, u, rfl, by injection h with h; exact h.symm⟩
  · cases h

/-! ### Status, hold, interrupt -/

/-- Writing the status register changes ST, and IL where a hold begins. -/
theorem State.writeStatus_eq (s : State) (v : Nibble) :
    s.writeStatus v =
      { s with st := v, il := if holdByHFlag s.cfg.typ && v.getLsbD 0 then false else s.il } := by
  unfold State.writeStatus State.enterHold State.holding State.hFlag State.setSt State.setIl
  split <;> simp_all

/-- Accepting an interrupt changes PC, the stack and the latch. -/
theorem State.acceptInterrupt_eq (s : State) :
    s.acceptInterrupt = { s with stk := s.pc, fstk := true, pc := 0x002, il := false } := rfl

/-- The initialize operation changes D and H, the latch, the ports, FSTK, PC and EYR. -/
theorem State.initialize_eq (s : State) :
    s.initialize = { s with
      st := s.st &&& 0b1100#4, il := false, ports := PortRegs.cleared, fstk := true, pc := 0x000,
      eyr := false } := rfl

/-- A request changes the latch at most. -/
theorem State.requestInterrupt_eq (s : State) :
    s.requestInterrupt = s ∨ s.requestInterrupt = s.setIl true := by
  unfold State.requestInterrupt
  split
  · split
    · exact .inl rfl
    · exact .inr rfl
  · exact .inr rfl

/-- A period of CP changes the divider, and H where it ends a hold. -/
theorem State.tickDivider_cases (s : State) :
    s.tickDivider = s.setDiv (dividerTick s.cfg.typ s.div) ∨
      s.holding = true ∧
        s.tickDivider = (s.setDiv (dividerTick s.cfg.typ s.div)).releaseHold := by
  unfold State.tickDivider
  simp only
  split
  · next h =>
    simp only [Bool.and_eq_true] at h
    exact .inr ⟨h.1.1, rfl⟩
  · exact .inl rfl

/-- A period of CP in full: H is reset exactly where C3 falls in a hold. -/
theorem State.tickDivider_eq (s : State) :
    s.tickDivider =
      { s with
        div := dividerTick s.cfg.typ s.div
        st :=
          if s.holding && s.c3 && !stageLevel (dividerTick s.cfg.typ s.div) (c3Stage s.cfg.typ) then
            s.st &&& 0b1110#4
          else s.st } := by
  have h : (s.setDiv (dividerTick s.cfg.typ s.div)).c3 =
      stageLevel (dividerTick s.cfg.typ s.div) (c3Stage s.cfg.typ) := rfl
  unfold State.tickDivider
  simp only [h]
  generalize (s.holding && s.c3 && !stageLevel (dividerTick s.cfg.typ s.div) (c3Stage s.cfg.typ)) = b
  cases b <;> rfl

/-- A pulse does nothing, has its effect, or has either after drawing a free value. -/
theorem State.pulse_cases (s : State) (e : PulseEffect) (f : State → State) :
    s.pulse e f = s ∨ s.pulse e f = f s ∨ s.pulse e f = f s.countDraw ∨ s.pulse e f = s.countDraw := by
  unfold State.pulse
  split
  · exact .inl rfl
  · exact .inr (.inl rfl)
  · split
    · exact .inr (.inr (.inl rfl))
    · exact .inr (.inr (.inr rfl))

/-! ### The meanings' shared shapes -/

/-- An operation on memory that answers a next state: the read was of a populated word, so it drew
nothing, and the write changed that word. -/
theorem memArith_next {f : Nibble → Nibble × Bool} {s t : State} (h : memArith f s = .next t) :
    ramPopulated s.cfg s.ea = true ∧
      t = (s.setZC (f (Memory.read s.ram s.ea))).setRam
        (Memory.write s.ram s.ea (f (Memory.read s.ram s.ea)).1) := by
  by_cases hp : ramPopulated s.cfg s.ea = true
  · simp only [memArith, State.memRead_populated hp] at h
    exact ⟨hp, (State.memWrite_next h).2⟩
  · simp only [memArith, State.memRead_unpopulated (by simpa using hp)] at h
    exact absurd (State.memWrite_next h).1 hp

/-- The same for an operation that leaves C alone. -/
theorem memLogic_next {f : Nibble → Nibble} {s t : State} (h : memLogic f s = .next t) :
    ramPopulated s.cfg s.ea = true ∧
      t = (s.setZ (isZero (f (Memory.read s.ram s.ea)))).setRam
        (Memory.write s.ram s.ea (f (Memory.read s.ram s.ea))) := by
  by_cases hp : ramPopulated s.cfg s.ea = true
  · simp only [memLogic, State.memRead_populated hp] at h
    exact ⟨hp, (State.memWrite_next h).2⟩
  · simp only [memLogic, State.memRead_unpopulated (by simpa using hp)] at h
    exact absurd (State.memWrite_next h).1 hp

/-! ### Fetch and step -/

/-- A fetch that succeeds decoded the byte at PC, or the two bytes from PC on, to its instruction. -/
theorem State.fetch_ok {s t : State} {i : Instr} (h : s.fetch = .ok (i, t)) :
    ∃ b0, s.romRead s.pc = .ok b0 ∧
      ((isTwoByte b0 = false ∧ (∃ r, decode [b0] = .ok (i, r)) ∧ t = { s with ir := b0, pc := s.pc + 1 }) ∨
        ∃ b1, isTwoByte b0 = true ∧ s.romRead (s.pc + 1) = .ok b1 ∧ (∃ r, decode [b0, b1] = .ok (i, r)) ∧
          t = { s with ir := b0, pc := s.pc + 1 + 1 }) := by
  have fetched : ∀ {b : Byte} {a : ProgAddr} {l : List Byte} {u v : State} {j : Instr},
      decodeFetched b a l u = .ok (j, v) → (∃ r, decode l = .ok (j, r)) ∧ v = u := by
    intro b a l u v j hd
    unfold decodeFetched at hd
    split at hd
    · next k r hk =>
      cases hd
      exact ⟨⟨r, hk⟩, rfl⟩
    · cases hd
  unfold State.fetch at h
  split at h
  · cases h
  · next b0 hb =>
    refine ⟨b0, hb, ?_⟩
    simp only at h
    split at h
    · next h2 =>
      split at h
      · cases h
      · next b1 hb1 => exact .inr ⟨b1, h2, hb1, (fetched h).1, (fetched h).2⟩
    · next h2 => exact .inl ⟨by simpa using h2, (fetched h).1, (fetched h).2⟩

/-- The core's turn, where it answers a next state: it holds, or accepts an interrupt, or runs the
fetched instruction. -/
theorem coreStep_next {s t : State} (h : coreStep s = .next t) :
    (s.holding = true ∧ t = s) ∨
      (s.holding = false ∧ s.il = true ∧ s.intEnabled = true ∧ t = s.acceptInterrupt) ∨
      (s.holding = false ∧ ∃ i u, s.fetch = .ok (i, u) ∧ exec i u = .next t) := by
  unfold coreStep at h
  split at h
  · next hh => exact .inl ⟨hh, by injection h with h; exact h.symm⟩
  · next hh =>
    split at h
    · next hi =>
      simp only [Bool.and_eq_true] at hi
      exact .inr (.inl ⟨by simpa using hh, hi.1, hi.2, by injection h with h; exact h.symm⟩)
    · split at h
      · cases h
      · next i u hf => exact .inr (.inr ⟨by simpa using hh, i, u, hf, h⟩)

/-- A step that answers a next state is the core's turn, a period of CP in a hold with no turn to come,
or an event of the environment. -/
theorem step_next {s t : State} (h : step s = .next t) :
    validCfg s.cfg = true ∧
      ((s.schedule = [] ∧ s.holding = false ∧ coreStep s = .next t) ∨
        (s.schedule = [] ∧ s.holding = true ∧ t = s.tickDivider) ∨
        (∃ rest, s.schedule = .core :: rest ∧ coreStep (s.setSchedule rest) = .next t) ∨
        ∃ e rest, s.schedule = e :: rest ∧ e ≠ .core ∧ t = (s.setSchedule rest).applyTurn e) := by
  unfold step at h
  split at h
  · next hv =>
    refine ⟨hv, ?_⟩
    unfold takeTurn at h
    split at h
    · next hs =>
      split at h
      · next hh => exact .inr (.inl ⟨hs, hh, by injection h with h; exact h.symm⟩)
      · next hh => exact .inl ⟨hs, by simpa using hh, h⟩
    · next rest hs => exact .inr (.inr (.inl ⟨rest, hs, h⟩))
    · next e rest hne hs =>
      exact .inr (.inr (.inr ⟨e, rest, hs, fun he => hne (by simp [he] at *), by injection h with h; exact h.symm⟩))
  · cases h

/-- In a hold with no turn to come a period of CP passes (R211). -/
theorem step_hold_no_turn {s : State} (hv : validCfg s.cfg = true) (hs : s.schedule = [])
    (hh : s.holding = true) : step s = .next s.tickDivider := by
  simp only [step, takeTurn, hv, hs, hh, if_true]

end Sys2Proof.Machine
end

