-- ==== Sys2Proof/Laws/PerInstr.lean ====
section
/-! SUPPORT. The family of statements made per instruction: the shape of an instruction's bytes, which its
length, its encoding and the mask and match table give three times over. -/

namespace Sys2Proof.Laws

/-- A well-formed instruction has as many bytes as its length says, its first byte asks for a second one
exactly when there are two (R80), and that byte fits the instruction's row of the mask and match
table (R85). -/
def EncodedBytes.Statement (i : Instr) : Prop :=
  i.wellFormed = true →
    (encode i).length = i.length ∧
      isTwoByte ((encode i).headD 0) = decide (i.length = 2) ∧
        (opcodeRows.any fun row => row.mnemonic == i.mnemonic && row.fits ((encode i).headD 0)) = true

/-- The first byte of a two-byte instruction is its opcode nibble over any four bits. -/
theorem EncodedBytes.twoByte (op : Nibble) (name : String) (i : Instr) (ap : ProgAddr) (h : encode i = encodeAddr op ap)
    (hl : i.length = 2) (hm : i.mnemonic = name)
    (hrow : ∀ low : Nibble, isTwoByte (op ++ low) = true ∧
      (opcodeRows.any fun row => row.mnemonic == name && row.fits (op ++ low)) = true) :
    EncodedBytes.Statement i := by
  intro _
  rw [h, hl, hm]
  exact ⟨rfl, (hrow _).1, (hrow _).2⟩

theorem EncodedBytes.lar : ∀ r : BitVec 3, EncodedBytes.Statement (.lar r) := by
  unfold EncodedBytes.Statement
  decide

theorem EncodedBytes.ltr : ∀ r : BitVec 3, EncodedBytes.Statement (.ltr r) := by
  unfold EncodedBytes.Statement
  decide

theorem EncodedBytes.lam : EncodedBytes.Statement .lam := by
  unfold EncodedBytes.Statement
  decide

theorem EncodedBytes.ltm : EncodedBytes.Statement .ltm := by
  unfold EncodedBytes.Statement
  decide

theorem EncodedBytes.lsm : EncodedBytes.Statement .lsm := by
  unfold EncodedBytes.Statement
  decide

theorem EncodedBytes.lal : EncodedBytes.Statement .lal := by
  unfold EncodedBytes.Statement
  decide

theorem EncodedBytes.lah : EncodedBytes.Statement .lah := by
  unfold EncodedBytes.Statement
  decide

theorem EncodedBytes.lai : ∀ i : Nibble, EncodedBytes.Statement (.lai i) := by
  unfold EncodedBytes.Statement
  decide

theorem EncodedBytes.lli : ∀ i : Nibble, EncodedBytes.Statement (.lli i) := by
  unfold EncodedBytes.Statement
  decide

theorem EncodedBytes.lhi : ∀ i : Nibble, EncodedBytes.Statement (.lhi i) := by
  unfold EncodedBytes.Statement
  decide

theorem EncodedBytes.lyi : ∀ i : Nibble, EncodedBytes.Statement (.lyi i) := by
  unfold EncodedBytes.Statement
  decide

theorem EncodedBytes.sar : ∀ r : BitVec 3, EncodedBytes.Statement (.sar r) := by
  unfold EncodedBytes.Statement
  decide

theorem EncodedBytes.sam : EncodedBytes.Statement .sam := by
  unfold EncodedBytes.Statement
  decide

theorem EncodedBytes.ssm : EncodedBytes.Statement .ssm := by
  unfold EncodedBytes.Statement
  decide

theorem EncodedBytes.sal : EncodedBytes.Statement .sal := by
  unfold EncodedBytes.Statement
  decide

theorem EncodedBytes.sah : EncodedBytes.Statement .sah := by
  unfold EncodedBytes.Statement
  decide

theorem EncodedBytes.say : EncodedBytes.Statement .say := by
  unfold EncodedBytes.Statement
  decide

theorem EncodedBytes.syr : ∀ r : BitVec 3, EncodedBytes.Statement (.syr r) := by
  unfold EncodedBytes.Statement
  decide

theorem EncodedBytes.clr : ∀ r : BitVec 3, EncodedBytes.Statement (.clr r) := by
  unfold EncodedBytes.Statement
  decide

theorem EncodedBytes.adi : ∀ i : Nibble, EncodedBytes.Statement (.adi i) := by
  unfold EncodedBytes.Statement
  decide

theorem EncodedBytes.ada : EncodedBytes.Statement .ada := by
  unfold EncodedBytes.Statement
  decide

theorem EncodedBytes.adm : EncodedBytes.Statement .adm := by
  unfold EncodedBytes.Statement
  decide

theorem EncodedBytes.aca : EncodedBytes.Statement .aca := by
  unfold EncodedBytes.Statement
  decide

theorem EncodedBytes.acm : EncodedBytes.Statement .acm := by
  unfold EncodedBytes.Statement
  decide

theorem EncodedBytes.sua : EncodedBytes.Statement .sua := by
  unfold EncodedBytes.Statement
  decide

theorem EncodedBytes.sum : EncodedBytes.Statement .sum := by
  unfold EncodedBytes.Statement
  decide

theorem EncodedBytes.ora : EncodedBytes.Statement .ora := by
  unfold EncodedBytes.Statement
  decide

theorem EncodedBytes.orm : EncodedBytes.Statement .orm := by
  unfold EncodedBytes.Statement
  decide

theorem EncodedBytes.eoa : EncodedBytes.Statement .eoa := by
  unfold EncodedBytes.Statement
  decide

theorem EncodedBytes.eom : EncodedBytes.Statement .eom := by
  unfold EncodedBytes.Statement
  decide

theorem EncodedBytes.cma : EncodedBytes.Statement .cma := by
  unfold EncodedBytes.Statement
  decide

theorem EncodedBytes.cmm : EncodedBytes.Statement .cmm := by
  unfold EncodedBytes.Statement
  decide

theorem EncodedBytes.ica : EncodedBytes.Statement .ica := by
  unfold EncodedBytes.Statement
  decide

theorem EncodedBytes.icm : EncodedBytes.Statement .icm := by
  unfold EncodedBytes.Statement
  decide

theorem EncodedBytes.icl : EncodedBytes.Statement .icl := by
  unfold EncodedBytes.Statement
  decide

theorem EncodedBytes.ich : EncodedBytes.Statement .ich := by
  unfold EncodedBytes.Statement
  decide

theorem EncodedBytes.tsm : EncodedBytes.Statement .tsm := by
  unfold EncodedBytes.Statement
  decide

theorem EncodedBytes.tba : ∀ g : BitVec 2, EncodedBytes.Statement (.tba g) := by
  unfold EncodedBytes.Statement
  decide

theorem EncodedBytes.tbs : ∀ g : BitVec 2, EncodedBytes.Statement (.tbs g) := by
  unfold EncodedBytes.Statement
  decide

theorem EncodedBytes.sba : ∀ g : BitVec 2, EncodedBytes.Statement (.sba g) := by
  unfold EncodedBytes.Statement
  decide

theorem EncodedBytes.sbs : ∀ g : BitVec 2, EncodedBytes.Statement (.sbs g) := by
  unfold EncodedBytes.Statement
  decide

theorem EncodedBytes.cba : ∀ g : BitVec 2, EncodedBytes.Statement (.cba g) := by
  unfold EncodedBytes.Statement
  decide

theorem EncodedBytes.cbs : ∀ g : BitVec 2, EncodedBytes.Statement (.cbs g) := by
  unfold EncodedBytes.Statement
  decide

theorem EncodedBytes.iba : ∀ g : BitVec 2, EncodedBytes.Statement (.iba g) := by
  unfold EncodedBytes.Statement
  decide

theorem EncodedBytes.ibs : ∀ g : BitVec 2, EncodedBytes.Statement (.ibs g) := by
  unfold EncodedBytes.Statement
  decide

theorem EncodedBytes.jmp (ap : ProgAddr) : EncodedBytes.Statement (.jmp ap) :=
  EncodedBytes.twoByte 0b1110#4 "JMP" (.jmp ap) ap rfl rfl rfl (by decide)

theorem EncodedBytes.bcs (ap : ProgAddr) : EncodedBytes.Statement (.bcs ap) :=
  EncodedBytes.twoByte 0b1100#4 "BCS" (.bcs ap) ap rfl rfl rfl (by decide)

theorem EncodedBytes.bcc (ap : ProgAddr) : EncodedBytes.Statement (.bcc ap) :=
  EncodedBytes.twoByte 0b1101#4 "BCC" (.bcc ap) ap rfl rfl rfl (by decide)

theorem EncodedBytes.cal (ap : ProgAddr) : EncodedBytes.Statement (.cal ap) :=
  EncodedBytes.twoByte 0b1111#4 "CAL" (.cal ap) ap rfl rfl rfl (by decide)

theorem EncodedBytes.rtn : EncodedBytes.Statement .rtn := by
  unfold EncodedBytes.Statement
  decide

theorem EncodedBytes.jac : EncodedBytes.Statement .jac := by
  unfold EncodedBytes.Statement
  decide

theorem EncodedBytes.nop : EncodedBytes.Statement .nop := by
  unfold EncodedBytes.Statement
  decide

end Sys2Proof.Laws
end

