-- ==== Sys2Proof/Tests/Slice0.lean ====
section
/-! SUPPORT. Tests of the model. Expected values come from the encodings of spec/30_encoding.md R85 and the
vectors of spec/95_test_vectors.md, named by their numbers (T, O, B, J, X); and, for every obligation
with hypotheses, a concrete case that meets them (`witness_…`). -/

namespace Sys2Proof.Tests

open Sys2Proof.Machine Sys2Proof.Safety

/-! ### Helpers -/

/-- The answer is a next state with this property. -/
def leaves (r : Result) (p : State → Bool) : Bool :=
  match r with
  | .next t => p t
  | .fault _ => false
  | .refused _ => false

/-- The answer is this fault. -/
def stops (r : Result) (f : Fault) : Bool :=
  match r with
  | .next _ => false
  | .fault g => g == f
  | .refused _ => false

/-- The bytes decode to the instruction, with nothing left over. -/
def decodesTo (bytes : List Byte) (i : Instr) : Bool :=
  match decode bytes with
  | .ok (j, []) => j == i
  | .ok _ => false
  | .error _ => false

/-- The word `m` at address 25, addressed by HR and LR, and `a` in AC. -/
def withMem (m a : Nibble) : State :=
  { State.reset with hr := 2, lr := 5, ram := Memory.write [] 0x25 m, ac := a }

/-- The word at address 25. -/
def mem25 (t : State) : Nibble := Memory.read t.ram 0x25

/-- The reset state under another configuration. -/
def underCfg (cfg : Cfg) : State := { State.reset with cfg := cfg }

/-- Option PO61 instead of PO60. -/
def cfgPo61 : Cfg := { Cfg.default with po6 := .po61 }

/-- The reset state with a byte of program at each of two addresses from `a` on, and PC there. -/
def atAddr (a : ProgAddr) (b0 b1 : Byte) : State :=
  { State.reset with pc := a, rom := [(a.toNat, b0), (a.toNat + 1, b1)] }

/-- A hold under TYP001, with the divider at `d`. -/
def heldAt (d : BitVec 16) : State := { State.reset with st := 0b0001, div := d, pc := 0x008 }

/-! ### Well-formedness -/

theorem test_wellFormed_refuses_syr_below_4 :
    ∀ r : BitVec 3, (Instr.syr r).wellFormed = decide (4 ≤ r.toNat) := by decide

theorem test_wellFormed_refuses_syr3 : (Instr.syr 3).wellFormed = false := by decide

/-! ### Decoding: a word for every constructor, from the binary column of R85 -/

theorem test_decode_loads :
    decodesTo [0b00010110#8] (.lar 6) && decodesTo [0b00011101#8] (.ltr 5) &&
    decodesTo [0b00000100#8] .lam && decodesTo [0b10000111#8] .ltm && decodesTo [0b00000101#8] .lsm &&
    decodesTo [0b00000110#8] .lal && decodesTo [0b00000111#8] .lah &&
    decodesTo [0b01001010#8] (.lai 10) && decodesTo [0b01100001#8] (.lli 1) &&
    decodesTo [0b01111111#8] (.lhi 15) && decodesTo [0b01010101#8] (.lyi 5) = true := by decide

theorem test_decode_stores :
    decodesTo [0b00101110#8] (.sar 6) && decodesTo [0b00001100#8] .sam && decodesTo [0b00001101#8] .ssm &&
    decodesTo [0b00001110#8] .sal && decodesTo [0b00001111#8] .sah && decodesTo [0b00001000#8] .say &&
    decodesTo [0b00110100#8] (.syr 4) && decodesTo [0b00110111#8] (.syr 7) &&
    decodesTo [0b00100111#8] (.clr 7) = true := by decide

theorem test_decode_arithmetic :
    decodesTo [0b10011000#8] (.adi 8) && decodesTo [0b10000000#8] .ada && decodesTo [0b10001000#8] .adm &&
    decodesTo [0b10000001#8] .aca && decodesTo [0b10001001#8] .acm && decodesTo [0b10000010#8] .sua &&
    decodesTo [0b10001010#8] .sum && decodesTo [0b10000011#8] .ica && decodesTo [0b10001011#8] .icm &&
    decodesTo [0b00000010#8] .icl && decodesTo [0b00000011#8] .ich = true := by decide

theorem test_decode_logic :
    decodesTo [0b10000100#8] .ora && decodesTo [0b10001100#8] .orm && decodesTo [0b10000101#8] .eoa &&
    decodesTo [0b10001101#8] .eom && decodesTo [0b10000110#8] .cma && decodesTo [0b10001110#8] .cmm &&
    decodesTo [0b10001111#8] .tsm = true := by decide

theorem test_decode_bits :
    decodesTo [0b10100010#8] (.tba 2) && decodesTo [0b10110011#8] (.tbs 3) &&
    decodesTo [0b10100110#8] (.sba 2) && decodesTo [0b10110100#8] (.sbs 0) &&
    decodesTo [0b10101011#8] (.cba 3) && decodesTo [0b10111010#8] (.cbs 2) &&
    decodesTo [0b10101101#8] (.iba 1) && decodesTo [0b10111111#8] (.ibs 3) = true := by decide

/-- Addresses whose three nibbles differ: iiiijjjj of the second byte over kkkk of the first. -/
theorem test_decode_control :
    decodesTo [0b11100111#8, 0b00101010#8] (.jmp 0x2A7) &&
    decodesTo [0b11000011#8, 0b00010010#8] (.bcs 0x123) &&
    decodesTo [0b11010110#8, 0b00000000#8] (.bcc 0x006) &&
    decodesTo [0b11110000#8, 0b01111111#8] (.cal 0x7F0) && decodesTo [0b00000001#8] .rtn &&
    decodesTo [0b00001001#8] .jac && decodesTo [0b00000000#8] .nop = true := by decide

/-- R85, R86: 242 first bytes are assigned and 14 are not. -/
theorem test_decode_count :
    ((List.range 256).filter fun n => classify (BitVec.ofNat 8 n) != .unassigned).length = 242 := by
  decide +kernel

/-- The table numbers bits from the first byte on: the second byte is bits 15..8. -/
theorem test_decodeTableWord :
    decodeTableWord 16 0x2AE7 = some (.jmp 0x2A7) ∧ decodeTableWord 8 0x2E = some (.sar 6) ∧
      decodeTableWord 8 0xE7 = some (.jmp 0x007) ∧ decodeTableWord 8 0x3F = none := by decide

/-! ### Data transfer -/

/-- T1. -/
theorem test_lar_register1 :
    leaves (exec (.lar 1) { State.reset with ports := { PortRegs.cleared with reg1 := 9 }, eyr := true })
      (fun t => t.ac == 9 && !t.eyr) = true := by decide

/-- T4: counter buffer 101 and PI60 low; RDB, RDA and RD9 of TYP001 are bits 13, 12 and 11. -/
theorem test_lar_counterBuffer :
    leaves (exec (.lar 6) { State.reset with div := 0b0010100000000000 }) (fun t => t.ac == 0b1010) =
      true := by decide

/-- T2. -/
theorem test_ltr_zero :
    leaves (exec (.ltr 5) { State.reset with pins := { State.reset.pins with pi5 := 0 } })
      (fun t => t.ac == 0 && t.zFlag) = true := by decide

/-- Part 1.4: option P2/F/, P4/3/; pins P43, P42 = 0, 1. -/
theorem test_ltr_port4_mixed :
    leaves
      (exec (.ltr 4)
        { underCfg { Cfg.default with portDir := .p2fp43 } with
          ports := { PortRegs.cleared with reg4 := 0b1010 }
          pins := { State.reset.pins with p4 := 0b0100 } })
      (fun t => t.ac == 0b0110 && !t.zFlag) = true := by decide

/-- T10: the Y register addresses page 0, and EYR is reset after. -/
theorem test_lam_y :
    leaves (exec .lam { State.reset with
        hr := 2, lr := 5, yr := 7, eyr := true, ram := [(0x07, 3), (0x25, 0xC)] })
      (fun t => t.ac == 3 && !t.eyr) = true := by decide

/-- T11. -/
theorem test_ltm_zero :
    leaves (exec .ltm (withMem 0 5)) (fun t => t.ac == 0 && t.zFlag) = true := by decide

/-- T12. -/
theorem test_lsm_direction :
    leaves (exec .lsm { withMem 0b1010 0 with st := 0b0100 })
      (fun t => t.st == 0b1010 && t.port0Output) = true := by decide

/-- T13. -/
theorem test_lsm_hold :
    leaves (exec .lsm { withMem 0b0001 0 with il := true })
      (fun t => t.st == 0b0001 && t.holding && !t.il) = true := by decide

/-- T15. -/
theorem test_lal : leaves (exec .lal { State.reset with lr := 7 }) (fun t => t.ac == 7) = true := by decide

/-- T16. -/
theorem test_lah : leaves (exec .lah { State.reset with hr := 3 }) (fun t => t.ac == 3) = true := by decide

/-- T17: Z is not updated. -/
theorem test_lai_zero :
    leaves (exec (.lai 0) { State.reset with ac := 5 }) (fun t => t.ac == 0 && !t.zFlag) = true := by decide

/-- T18. -/
theorem test_lli :
    leaves (exec (.lli 3) { State.reset with eyr := true }) (fun t => t.lr == 3 && !t.eyr) = true := by decide

/-- T19. -/
theorem test_lhi : leaves (exec (.lhi 15) State.reset) (fun t => t.hr == 0xF) = true := by decide

/-- T20. -/
theorem test_lyi : leaves (exec (.lyi 5) State.reset) (fun t => t.yr == 5 && t.eyr) = true := by decide

/-- T21. -/
theorem test_sar_pla :
    leaves (exec (.sar 6) { State.reset with ac := 5 }) (fun t => t.ports.reg6 == 0xB6) = true := by decide

/-- Part 1.7: under PO61 each write leaves the other half alone. -/
theorem test_sar_halves :
    leaves (exec (.sar 6)
        { underCfg cfgPo61 with ac := 9, ports := { PortRegs.cleared with reg6 := 0x30 } })
      (fun t => t.ports.reg6 == 0x39) = true := by decide

/-- T25. -/
theorem test_sam_y :
    leaves (exec .sam { State.reset with ac := 7, yr := 5, eyr := true })
      (fun t => t.ram == [(0x05, 7)] && t.eyr) = true := by decide

/-- T26: page 9 is not populated. -/
theorem test_sam_unpopulated :
    stops (exec .sam { State.reset with ac := 7, hr := 9 }) (.ramWriteUnpopulated 0x90) = true := by decide

/-- T28. -/
theorem test_ssm :
    leaves (exec .ssm { withMem 0 0 with st := 0b0110 }) (fun t => mem25 t == 6) = true := by decide

/-- T29. -/
theorem test_sal : leaves (exec .sal { State.reset with ac := 9 }) (fun t => t.lr == 9) = true := by decide

/-- T30. -/
theorem test_sah : leaves (exec .sah { State.reset with ac := 2 }) (fun t => t.hr == 2) = true := by decide

/-- T31. -/
theorem test_say :
    leaves (exec .say { State.reset with ac := 0xB }) (fun t => t.yr == 0xB && t.eyr) = true := by decide

/-- T32. -/
theorem test_syr_generalPort :
    leaves (exec (.syr 5) { underCfg { Cfg.default with dec := .generalPort } with yr := 3 })
      (fun t => t.ports.reg5 == 0b10011) = true := by decide

/-- T33. -/
theorem test_syr_fiveDigit :
    leaves (exec (.syr 5) { State.reset with yr := 3 }) (fun t => t.ports.reg5 == 0b00100) = true := by decide

/-- T35: not 0. -/
theorem test_clr_generalPort :
    leaves (exec (.clr 5) (underCfg { Cfg.default with dec := .generalPort }))
      (fun t => t.ports.reg5 == 0b10000) = true := by decide

/-- T37. -/
theorem test_clr_half :
    leaves (exec (.clr 6) { underCfg cfgPo61 with ports := { PortRegs.cleared with reg6 := 0x39 } })
      (fun t => t.ports.reg6 == 0x30) = true := by decide

/-! ### Operation -/

/-- O6. -/
theorem test_adi_carry :
    leaves (exec (.adi 15) { State.reset with ac := 7 })
      (fun t => t.ac == 6 && t.st == 0b0100) = true := by decide

/-- O3: C is cleared. -/
theorem test_adi_zero :
    leaves (exec (.adi 0) { State.reset with st := 0b0100 }) (fun t => t.st == 0b1000) = true := by decide

/-- O8: the carry of before is not added. -/
theorem test_ada_ignores_carry :
    leaves (exec .ada { withMem 0 0 with st := 0b0100 })
      (fun t => t.ac == 0 && t.st == 0b1000) = true := by decide

/-- O9. -/
theorem test_adm :
    leaves (exec .adm (withMem 8 8)) (fun t => mem25 t == 0 && t.ac == 8 && t.st == 0b1100) = true := by decide

/-- O11: 31. -/
theorem test_aca_31 :
    leaves (exec .aca { withMem 0xF 0xF with st := 0b0100 })
      (fun t => t.ac == 0xF && t.st == 0b0100) = true := by decide

/-- O12. -/
theorem test_acm :
    leaves (exec .acm { withMem 3 7 with st := 0b0100 })
      (fun t => mem25 t == 0xB && t.st == 0b0000) = true := by decide

/-- O14: a borrow. -/
theorem test_sua_borrow :
    leaves (exec .sua (withMem 3 5)) (fun t => t.ac == 0xE && t.st == 0b0000) = true := by decide

/-- O15: C is 1 where there is no borrow. -/
theorem test_sua_equal :
    leaves (exec .sua (withMem 7 7)) (fun t => t.ac == 0 && t.st == 0b1100) = true := by decide

/-- O18. -/
theorem test_sum :
    leaves (exec .sum (withMem 0 1)) (fun t => mem25 t == 0xF && t.ac == 1 && !t.cFlag) = true := by decide

/-- O19: C is unchanged. -/
theorem test_ora :
    leaves (exec .ora { withMem 0b0101 0b0011 with st := 0b0100 })
      (fun t => t.ac == 0b0111 && t.st == 0b0100) = true := by decide

/-- O20. -/
theorem test_orm :
    leaves (exec .orm (withMem 0 0)) (fun t => mem25 t == 0 && t.zFlag) = true := by decide

/-- O21. -/
theorem test_eoa :
    leaves (exec .eoa (withMem 0b0110 0b0011)) (fun t => t.ac == 0b0101 && !t.zFlag) = true := by decide

/-- O23. -/
theorem test_eom :
    leaves (exec .eom (withMem 0xF 0xF)) (fun t => mem25 t == 0 && t.zFlag && t.ac == 0xF) = true := by decide

/-- O25. -/
theorem test_cma :
    leaves (exec .cma { State.reset with ac := 0b1010 }) (fun t => t.ac == 0b0101 && !t.zFlag) = true := by decide

/-- O26. -/
theorem test_cmm :
    leaves (exec .cmm (withMem 5 3)) (fun t => mem25 t == 0xC && t.ac == 3 && !t.zFlag) = true := by decide

/-- O27: memory keeps its word. -/
theorem test_ica :
    leaves (exec .ica (withMem 0xF 6))
      (fun t => t.ac == 0 && mem25 t == 0xF && t.st == 0b1100) = true := by decide

/-- O29. -/
theorem test_icm :
    leaves (exec .icm (withMem 0xF 6)) (fun t => mem25 t == 0 && t.ac == 6 && t.st == 0b1100) = true := by decide

/-- O31: no carry into HR, no flag. -/
theorem test_icl :
    leaves (exec .icl { State.reset with hr := 2, lr := 0xF })
      (fun t => t.lr == 0 && t.hr == 2 && t.st == 0) = true := by decide

/-- O32. -/
theorem test_ich : leaves (exec .ich { State.reset with hr := 0xF }) (fun t => t.hr == 0) = true := by decide

/-- O34: it counts as a write for EYR. -/
theorem test_tsm :
    leaves (exec .tsm { State.reset with yr := 5, eyr := true, ram := [(0x05, 9)] })
      (fun t => !t.zFlag && t.eyr) = true := by decide

/-- O36. -/
theorem test_tsm_unpopulated :
    stops (exec .tsm { State.reset with hr := 9 }) (.ramWriteUnpopulated 0x90) = true := by decide

/-! ### Bit manipulation -/

/-- B1. -/
theorem test_tba_one :
    leaves (exec (.tba 2) { State.reset with ac := 0b0100 }) (fun t => !t.zFlag) = true := by decide

/-- B2. -/
theorem test_tba_zero :
    leaves (exec (.tba 0) { State.reset with ac := 0b0100 }) (fun t => t.zFlag) = true := by decide

/-- B5: Z tests itself. -/
theorem test_tbs_itself :
    leaves (exec (.tbs 3) { State.reset with st := 0b1000 }) (fun t => t.st == 0) = true := by decide

/-- B7. -/
theorem test_sba :
    leaves (exec (.sba 3) { State.reset with ac := 0b0001 }) (fun t => t.ac == 0b1001) = true := by decide

/-- B9: port 0 drives its register at once. -/
theorem test_sbs_direction :
    leaves (exec (.sbs 1) { State.reset with ports := { PortRegs.cleared with reg0 := 5 } })
      (fun t => t.st == 0b0010 && t.drivenLevel (.p0 2) == some true &&
        t.drivenLevel (.p0 1) == some false) = true := by decide

/-- B11: no hold under HOLD0, and the request stays. -/
theorem test_sbs_hold0 :
    leaves (exec (.sbs 0) { underCfg { Cfg.default with typ := .typ004 } with il := true })
      (fun t => t.st == 0b0001 && !t.holding && t.il) = true := by decide

/-- B12: Z is not updated. -/
theorem test_cba :
    leaves (exec (.cba 0) { State.reset with ac := 0b0001 }) (fun t => t.ac == 0 && !t.zFlag) = true := by decide

/-- B13. -/
theorem test_cbs :
    leaves (exec (.cbs 2) { underCfg { Cfg.default with typ := .typ004 } with st := 0b1111 })
      (fun t => t.st == 0b1011) = true := by decide

/-- B14. -/
theorem test_iba :
    leaves (exec (.iba 1) { State.reset with ac := 0b0101 }) (fun t => t.ac == 0b0111) = true := by decide

/-- B15. -/
theorem test_ibs :
    leaves (exec (.ibs 2) { State.reset with st := 0b0100 }) (fun t => t.st == 0) = true := by decide

/-- B16. -/
theorem test_ibs_hold :
    leaves (exec (.ibs 0) { State.reset with il := true }) (fun t => t.holding && !t.il) = true := by decide

/-! ### Branch and subroutine, fetched at their addresses -/

/-- J1. -/
theorem test_jmp :
    leaves (step (atAddr 0x010 0xE7 0x2A)) (fun t => t.pc == 0x2A7) = true := by decide +kernel

/-- J2. -/
theorem test_bcs_taken :
    leaves (step { atAddr 0x010 0xC3 0x12 with st := 0b1000 }) (fun t => t.pc == 0x123) = true := by
  decide +kernel

/-- J6: EYR is reset although the branch is not taken. -/
theorem test_bcs_untaken :
    leaves (step { atAddr 0x010 0xC3 0x12 with eyr := true }) (fun t => t.pc == 0x012 && !t.eyr) = true := by
  decide +kernel

/-- J4. -/
theorem test_bcc_taken :
    leaves (step (atAddr 0x00B 0xD6 0x00)) (fun t => t.pc == 0x006) = true := by decide +kernel

/-- J5. -/
theorem test_bcc_untaken :
    leaves (step { atAddr 0x00B 0xD6 0x00 with st := 0b1000 }) (fun t => t.pc == 0x00D) = true := by
  decide +kernel

/-- J8. -/
theorem test_cal :
    leaves (step { atAddr 0x100 0xF0 0x7F with fstk := false })
      (fun t => t.stk == 0x102 && t.fstk && t.pc == 0x7F0) = true := by decide +kernel

/-- J9: the return address of before is lost. -/
theorem test_cal_nested :
    leaves (step { atAddr 0x7F0 0xF4 0x12 with stk := 0x102 })
      (fun t => t.stk == 0x7F2 && t.pc == 0x124) = true := by decide +kernel

/-- J10. -/
theorem test_rtn :
    leaves (step { atAddr 0x00F 0x01 0x00 with stk := 0x006 })
      (fun t => t.pc == 0x006 && !t.fstk && t.stk == 0x006) = true := by decide +kernel

/-- J11, with the parameter RTN_EMPTY at fault. -/
theorem test_rtn_empty :
    stops (exec .rtn { underCfg { Cfg.default with rtnEmpty := .fault } with fstk := false }) .stackEmpty =
      true := by decide

/-- J14. -/
theorem test_jac :
    leaves (step { atAddr 0x123 0x09 0x00 with ac := 0xA }) (fun t => t.pc == 0x12A) = true := by decide +kernel

/-- J15: the block of the address plus 2. -/
theorem test_jac_block :
    leaves (step (atAddr 0x10F 0x09 0x00)) (fun t => t.pc == 0x110) = true := by decide +kernel

/-- J18. -/
theorem test_nop :
    leaves (step { atAddr 0x040 0x00 0x00 with eyr := true })
      (fun t => t == { atAddr 0x040 0x00 0x00 with pc := 0x041 }) = true := by decide +kernel

/-! ### Fetch, interrupt, hold, reset -/

/-- Spec/95 2.2, first row. -/
theorem test_fetch_outside :
    stops (step { State.reset with pc := 0x800 }) (.romUnpopulated 0x800) = true := by decide +kernel

/-- Spec/95 2.2, second row. -/
theorem test_fetch_second_byte_outside :
    stops (step (atAddr 0x7FF 0xE0 0x00)) (.romUnpopulated 0x800) = true := by decide +kernel

/-- Spec/95 2.2, third row. -/
theorem test_illegal :
    stops (step (atAddr 0x010 0x0A 0x00)) (.illegalOpcode 0x0A 0x010) = true := by decide +kernel

/-- A chip whose mask nobody gave does nothing. -/
theorem test_no_program : stops (step State.reset) (.romNotGiven 0x000) = true := by decide +kernel

/-- From reset, the placed word is the first instruction. -/
theorem test_withFetchWord :
    leaves (step (State.reset.withFetchWord 8 0x4A)) (fun t => t.ac == 10 && t.pc == 1 && t.ir == 0x4A) &&
      leaves (step (State.reset.withFetchWord 16 0x00FF)) (fun t => t.pc == 0x00F && t.stk == 2) = true := by
  decide +kernel

/-- X1. -/
theorem test_interrupt :
    leaves (step { State.reset with il := true, fstk := false, pc := 0x123, ac := 5, st := 0b1100 })
      (fun t => t.stk == 0x123 && t.fstk && t.pc == 0x002 && !t.il && t.ac == 5 && t.st == 0b1100) =
      true := by decide +kernel

/-- X3: FSTK = 1 defers it. -/
theorem test_interrupt_deferred :
    leaves (step { atAddr 0x123 0x00 0x00 with il := true }) (fun t => t.pc == 0x124 && t.il) = true := by
  decide +kernel

/-- X7, with INT_IN_HOLD = dropped. -/
theorem test_interrupt_in_hold :
    leaves (step { heldAt 0 with schedule := [.intPulse 4 4] }) (fun t => !t.il && t.holding) = true := by
  decide +kernel

/-- X8: C3 of TYP001 is bit 13 of the divider. -/
theorem test_hold_ends :
    leaves (step { heldAt 0x3FFF with schedule := [.divTick] })
      (fun t => !t.holding && t.div == 0x4000 && t.pc == 0x008) = true := by decide +kernel

/-- R212: with no turn to come a hold ends by the clock alone. -/
theorem test_hold_ends_without_turns :
    leaves (step (heldAt 0x3FFF)) (fun t => !t.holding && t.pc == 0x008) = true := by decide +kernel

/-- R211: the core's turn in a hold. -/
theorem test_core_idles :
    leaves (step { heldAt 0x3FFF with schedule := [.core] }) (fun t => t == heldAt 0x3FFF) = true := by
  decide +kernel

/-- R224: divider (2) of TYP002 goes from 12499 to 0. -/
theorem test_typ002_divider :
    dividerTick .typ002 49999 = 0 ∧ dividerTick .typ002 49998 = 49999 ∧ dividerTick .typ003 49999 = 50000 := by
  decide

/-- X10. -/
theorem test_resetPulse :
    leaves (step { State.reset with
        pc := 0x456, st := 0b1111, fstk := false, eyr := true, il := true, ac := 9, ram := [(0x05, 7)]
        ports := { PortRegs.cleared with reg1 := 0xF, reg5 := 0b10011, reg6 := 0xB6 }
        schedule := [.resetPulse 4] })
      (fun t => t == { State.reset with st := 0b1100, ac := 9, ram := [(0x05, 7)] }) = true := by decide +kernel

/-! ### Witnesses: for each obligation with hypotheses, a case that meets them -/

/-- The ten instructions that write data memory. -/
def writers : List Instr := [.sam, .ssm, .adm, .acm, .sum, .orm, .eom, .cmm, .icm, .tsm]

/-- The smallest operand of the one instruction that has an ill-formed one. -/
theorem witness_DecodeOfEncodeIsIdentity :
    (Instr.syr 4).wellFormed = true ∧ (Instr.cal 0xFFF).wellFormed = true := by decide

/-- The last one-byte and the first and last two-byte first bytes. -/
theorem witness_EncodeOfDecodeIsIdentity :
    decode [0xBF] = .ok (.ibs 3, []) ∧ decode [0xC0, 0x12] = .ok (.bcs 0x120, []) ∧
      decode [0xFF, 0xFF] = .ok (.cal 0xFFF, []) := ⟨rfl, rfl, rfl⟩

theorem witness_DecoderAgreesWithMaskTable :
    decode [0x37, 0x00] = .ok (.syr 7, [0x00]) ∧ decode [0xE7, 0x2A] = .ok (.jmp 0x2A7, []) := ⟨rfl, rfl⟩

theorem witness_LengthDecidedByFirstByte :
    (decode [0xC0, 0x12] = .ok (.bcs 0x120, []) ∧ (0xC0 : Byte).extractLsb' 6 2 = 0b11#2) ∧
      (decode [0xBF, 0x12] = .ok (.ibs 3, [0x12]) ∧ (0xBF : Byte).extractLsb' 6 2 ≠ 0b11#2) :=
  ⟨⟨rfl, by decide⟩, rfl, by decide⟩

theorem witness_BranchTargetAssembledFromBothBytes :
    (isTwoByte 0xC0 = true ∧ (0xC0 : Byte).toNat / 16 = 0xC) ∧
      (isTwoByte 0xDF = true ∧ (0xDF : Byte).toNat / 16 = 0xD) ∧
      (isTwoByte 0xE0 = true ∧ (0xE0 : Byte).toNat / 16 = 0xE) ∧
      (isTwoByte 0xFF = true ∧ (0xFF : Byte).toNat / 16 = 0xF) := by decide

/-- The first and the last unassigned byte, each fetched, and assigned bytes beside them. -/
theorem witness_UnassignedFirstBytesStop :
    CoreRuns (atAddr 0x010 0x0A 0x00) ∧ (atAddr 0x010 0x0A 0x00).romRead 0x010 = .ok 0x0A ∧
      CoreRuns (atAddr 0x010 0x3F 0x00) ∧ (atAddr 0x010 0x3F 0x00).romRead 0x010 = .ok 0x3F ∧
      classify 0x09 ≠ .unassigned ∧ classify 0x40 ≠ .unassigned := by
  refine ⟨?_, rfl, ?_, rfl, by decide, by decide⟩
  · unfold CoreRuns; decide +kernel
  · unfold CoreRuns; decide +kernel

/-- With two bytes, the last two of the program memory, and the core's turn on the schedule. -/
theorem witness_StepRunsDecodedInstruction :
    CoreRuns { atAddr 0x7FE 0xE7 0x2A with schedule := [.core, .divTick] } ∧
      decode [0xE7, 0x2A] = .ok (.jmp 0x2A7, []) ∧ BytesAtPc (atAddr 0x7FE 0xE7 0x2A) [0xE7, 0x2A] := by
  refine ⟨?_, rfl, ?_⟩
  · unfold CoreRuns; decide +kernel
  · intro k b h
    match k with
    | 0 => cases h; rfl
    | 1 => cases h; rfl
    | k + 2 => simp at h

theorem witness_FetchOutsideProgramMemoryStops :
    (CoreRuns { State.reset with pc := 0x800 } ∧ romPopulated Cfg.default 0x800 = false) ∧
      (CoreRuns (atAddr 0x7FF 0xE0 0x00) ∧ (atAddr 0x7FF 0xE0 0x00).romRead 0x7FF = .ok 0xE0 ∧
        isTwoByte 0xE0 = true ∧ romPopulated Cfg.default (0x7FF + 1) = false) := by
  refine ⟨⟨?_, by decide⟩, ?_, rfl, by decide, by decide⟩
  · unfold CoreRuns; decide +kernel
  · unfold CoreRuns; decide +kernel

theorem witness_PlacedWordRunsNext :
    validCfg State.reset.cfg = true ∧ romPopulated State.reset.cfg State.reset.pc = true ∧
      romPopulated State.reset.cfg (State.reset.pc + 1) = true ∧
      decodeTableWord 16 0x2AE7 = some (.jmp 0x2A7) := by decide +kernel

/-- Line 0 selects the literal 3 and its complement; and the reset configuration is one of a real chip. -/
theorem witness_InvalidConfigurationRefused :
    ((0xC0 : Byte).getLsbD (2 * 3) = true ∧ (0xC0 : Byte).getLsbD (2 * 3 + 1) = true) ∧
      ([{ base := 0, size := 95 }, { base := 94, size := 1 }] : List Region).Pairwise
        (fun r q => r.base + r.size ≤ q.base) = False ∧
      validCfg { Cfg.default with dec := { DecodeMatrix.fiveDigit with dec0 := 0xC0 } } = false ∧
      validCfg { Cfg.default with chip := .tcp4630ap } = false ∧
      validCfg { Cfg.default with ramMap := [{ base := 1, size := 96 }] } = false ∧
      validCfg { Cfg.default with romMap := [{ base := 2049, size := 2047 }, { base := 0, size := 1 }] } =
        false ∧
      validCfg { Cfg.default with ramMap := [{ base := 0, size := 16 }, { base := 176, size := 80 }] } =
        true := by
  refine ⟨by decide, by simp, ?_⟩
  decide +kernel

theorem witness_StepNeverChangesMask : ∃ t, step (atAddr 0x010 0x4A 0x00) = .next t := ⟨_, rfl⟩

/-- TYP002 with its divider at its largest count, and a word in the last populated cell. -/
theorem witness_StepKeepsInvariant :
    ∃ s t, s.div = 49999 ∧ s.ram = [(0x5F, 7)] ∧ s.cfg.typ = .typ002 ∧ Inv s ∧ step s = .next t := by
  refine ⟨{ atAddr 0x010 0x0C 0x00 with
    ram := [(0x5F, 7)], div := 49999, cfg := { Cfg.default with typ := .typ002 } }, _, rfl, rfl, rfl, ?_, rfl⟩
  exact ⟨rfl, by decide, rfl, fun h => absurd h (by decide), fun _ => by decide⟩

/-- A hold in which no request waits meets the clause of the invariant about holds. -/
theorem witness_StepKeepsInvariant_in_hold :
    ∃ t, Inv (heldAt 0) ∧ (heldAt 0).holding = true ∧ (heldAt 0).cfg.intInHold = .dropped ∧
      step (heldAt 0) = .next t :=
  ⟨_, ⟨rfl, by decide, rfl, fun _ _ => rfl, fun h => absurd h (by decide)⟩, rfl, rfl, rfl⟩

/-- Two cycles exactly, in a hold. -/
theorem witness_ResetPulseInitializes :
    validCfg (heldAt 0).cfg = true ∧ 4 ≤ 4 ∧
      ({ heldAt 0 with schedule := [.resetPulse 4] } : State).schedule = [.resetPulse 4] := by decide +kernel

theorem witness_ShortResetPulseIsAllOrNothing :
    validCfg Cfg.default = true ∧ (0 < 1 ∧ 1 < 4) ∧ (0 < 3 ∧ 3 < 4) ∧
      ({ State.reset with schedule := [.resetPulse 3] } : State).schedule = [.resetPulse 3] := by
  decide +kernel

/-- Each clause at its bounds: 4 and 4; 0 and 4; 3 and 4; 4 and 3. -/
theorem witness_InterruptRequestSetsLatch :
    validCfg Cfg.default = true ∧ State.reset.holding = false ∧
      (intPulseEffect 4 4 = .definite ∧ intPulseEffect 0 4 = .ignored ∧ intPulseEffect 4 0 = .ignored ∧
        intPulseEffect 3 4 = .indefinite ∧ intPulseEffect 4 3 = .indefinite ∧
        intPulseEffect 1 1 = .indefinite) := by decide +kernel

/-- In a hold; the bounds of the pulse widths are those of the test before. -/
theorem witness_InterruptRequestInHold :
    validCfg (heldAt 0).cfg = true ∧ (heldAt 0).holding = true ∧
      ({ heldAt 0 with schedule := [.intPulse 3 4] } : State).schedule = [.intPulse 3 4] := by decide +kernel

theorem witness_PinChangeSetsPins :
    let levels : Pins := { p0 := 1, p2 := 2, p4 := 4, pi5 := 8, pi60 := true }
    validCfg (heldAt 0).cfg = true ∧
      ({ heldAt 0 with schedule := [.pinChange levels] } : State).schedule = [.pinChange levels] := by
  decide +kernel

/-- With an empty schedule, and with the core's turn on it. -/
theorem witness_InterruptAccepted :
    let s : State := { State.reset with il := true, fstk := false, pc := 0x123 }
    validCfg s.cfg = true ∧ s.schedule = [] ∧ s.il = true ∧ s.eyr = false ∧ s.fstk = false ∧
      s.holding = false ∧ ({ s with schedule := [.core] } : State).schedule.head? = some .core := by
  decide +kernel

/-- Deferred by EYR alone, and by FSTK alone; a step that begins a hold, and one that does not. -/
theorem witness_DisabledInterruptWaits :
    (∃ t, step { atAddr 0x123 0x00 0x00 with eyr := true, fstk := false, il := false } = .next t) ∧
      ∃ t, step { atAddr 0x123 0xB4 0x00 with fstk := true, il := false } = .next t ∧ t.holding = true :=
  ⟨⟨_, rfl⟩, _, rfl, rfl⟩

theorem witness_OnlyRtnResetsStackFlag :
    (∃ t, exec .rtn State.reset = .next t ∧ t.fstk ≠ State.reset.fstk) ∧
      ∃ t, exec (.cal 0x7F0) { State.reset with fstk := false } = .next t ∧ t.fstk ≠ false :=
  ⟨⟨_, rfl, by decide⟩, _, rfl, by decide⟩

theorem witness_CoreIdlesInHold :
    let s : State := { heldAt 0 with schedule := [.core] }
    validCfg s.cfg = true ∧ s.schedule = [.core] ∧ s.holding = true := by decide +kernel

/-- C3 about to fall and C3 that stays, with no turn to come and with a tick to come; bit 13 of TYP001. -/
theorem witness_HoldEndsOnTrailingEdgeOfC3 :
    (validCfg Cfg.default = true ∧ (heldAt 0x3FFF).holding = true ∧ (heldAt 0x3FFF).schedule = [] ∧
      ((heldAt 0x3FFF).cfg.typ, 13) ∈ [(Typ.typ001, 13), (.typ002, 15), (.typ003, 15)]) ∧
      ((0x3FFF : BitVec 16).getLsbD 13 = true ∧ (dividerTick .typ001 0x3FFF).getLsbD 13 = false) ∧
      ((0x2000 : BitVec 16).getLsbD 13 = true ∧ (dividerTick .typ001 0x2000).getLsbD 13 = true) := by
  decide +kernel

theorem witness_HoldEndsWithinOneDividerRound :
    validCfg (heldAt 0).cfg = true ∧ (heldAt 0).holding = true ∧ 65536 ≤ 65536 := by decide +kernel

/-- TYP002 at its largest count, in a hold that ends and out of one. -/
theorem witness_DividerCountsBasicClock :
    let s : State := { State.reset with
      cfg := { Cfg.default with typ := .typ002 }, div := 49999, schedule := [.divTick] }
    let t : State := { s with st := flags true true true true }
    (validCfg s.cfg = true ∧ s.schedule = [.divTick] ∧ s.div.toNat < 50000 ∧ s.holding = false) ∧
      t.holding = true ∧ t.tickDivider.st = flags true true true false := by decide +kernel

/-- A setter of EYR, a memory write and a resetting instruction. -/
theorem witness_YFlagAfterEveryInstruction :
    (∃ t, exec (.lyi 15) State.reset = .next t) ∧ (∃ t, exec .sam State.reset = .next t) ∧
      ∃ t, exec .nop { State.reset with eyr := true } = .next t := ⟨⟨_, rfl⟩, ⟨_, rfl⟩, _, rfl⟩

theorem witness_OnlyStatusInstructionsWriteDAndH :
    (∃ t, exec (.sbs 1) State.reset = .next t ∧ t.dFlag ≠ State.reset.dFlag) ∧
      ∃ t, exec (.ibs 0) State.reset = .next t ∧ t.hFlag ≠ State.reset.hFlag :=
  ⟨⟨_, rfl, by decide⟩, _, rfl, by decide⟩

theorem witness_OnlyNamedInstructionsWriteZAndC :
    (∃ t, exec (.tba 0) State.reset = .next t ∧ t.zFlag ≠ State.reset.zFlag) ∧
      ∃ t, exec (.sbs 2) State.reset = .next t ∧ t.cFlag ≠ State.reset.cFlag :=
  ⟨⟨_, rfl, by decide⟩, _, rfl, by decide⟩

theorem witness_OnlyNamedInstructionsWriteRegisters :
    (∃ t, exec (.lai 1) State.reset = .next t ∧ t.ac ≠ State.reset.ac) ∧
      (∃ t, exec (.cal 0x7F0) { State.reset with pc := 0x102 } = .next t ∧ t.stk ≠ State.reset.stk) ∧
      ∃ t, exec (.jmp 0x2A7) State.reset = .next t ∧ t.pc ≠ State.reset.pc :=
  ⟨⟨_, rfl, by decide⟩, ⟨_, rfl, by decide⟩, _, rfl, by decide⟩

theorem witness_OnlyTenInstructionsWriteMemory :
    (.lam ∉ writers ∧ ∃ t, exec .lam (withMem 5 3) = .next t) ∧
      (.adm ∈ writers ∧ ∃ t, exec .adm (withMem 5 3) = .next t) ∧ (0x24 : DataAddr) ≠ (withMem 5 3).ea :=
  ⟨⟨by decide, _, rfl⟩, ⟨by decide, _, rfl⟩, by decide⟩

theorem witness_InstructionsLeaveTheRestAlone :
    (∃ t, exec (.lai 5) State.reset = .next t) ∧
      ∃ t, exec .nop { State.reset with il := true } = .next t ∧ t.il = true := ⟨⟨_, rfl⟩, _, rfl, rfl⟩

theorem witness_CanonicalMemoryDeterminedByReads :
    Memory.wf [(0x00, 1), (0xFF, 15)] = true ∧ Memory.wf [] = true := by decide

theorem witness_EffectiveAddressRule :
    ({ State.reset with eyr := true, yr := 15 } : State).eyr = true ∧ State.reset.eyr = false ∧
      (∃ t, exec (.lli 15) State.reset = .next t ∧ t.lr ≠ State.reset.lr) ∧
      (∃ t, exec .ich State.reset = .next t ∧ t.hr ≠ State.reset.hr) ∧
      ∃ t, exec .say { State.reset with ac := 1 } = .next t ∧ t.yr ≠ 0 :=
  ⟨rfl, rfl, ⟨_, rfl, by decide⟩, ⟨_, rfl, by decide⟩, _, rfl, by decide⟩

/-- The first and the last line, and a line that selects no literal. -/
theorem witness_DecodeMatrixIsProductOfLiterals :
    let m : DecodeMatrix := { DecodeMatrix.fiveDigit with dec4 := 0x00 }
    [m.dec0, m.dec1, m.dec2, m.dec3, m.dec4][0]? = some 0xA9 ∧
      [m.dec0, m.dec1, m.dec2, m.dec3, m.dec4][4]? = some 0x00 := by decide

/-- Port 0 as an output by STD1 and by D, and as an input; and the last combination of R6. -/
theorem witness_OutputPinsShowRegisters :
    ({ Cfg.default with std := .std1 } : Cfg).std = .std1 ∧
      ({ State.reset with st := 0b0010 } : State).dFlag = true ∧
      (State.reset.cfg.std = .stdD ∧ State.reset.dFlag = false) ∧
      (({ Cfg.default with portDir := .p20p40 } : Cfg).portDir, (0x0 : Nibble), (0x0 : Nibble)) ∈
        [(PortDir.p2fp4f, 0xF, 0xF), (.p20p40, 0x0, 0x0)] := by decide

theorem witness_LoadFromPort :
    (State.reset.cfg.std = .stdD ∧ State.reset.dFlag = false) ∧
      ({ Cfg.default with std := .std1 } : Cfg).std = .std1 ∧
      ({ State.reset with st := 0b0010 } : State).dFlag = true ∧
      (State.reset.cfg.portDir, (0xF : Nibble), (0xF : Nibble)) ∈ [(PortDir.p2fp4f, 0xF, 0xF)] ∧
      (State.reset.cfg.typ, 11, 12, 13) ∈ [(Typ.typ001, 11, 12, 13)] := by decide

theorem witness_UndefinedRegisterStops :
    State.reset.cfg.po6 = .po60 PlaTable.segmentDisplay := by decide

/-- `Reads` at a populated and at an unpopulated address. -/
theorem witness_LoadFromMemory :
    ramPopulated Cfg.default (withMem 5 3).ea = true ∧
      ramPopulated Cfg.default ({ State.reset with hr := 9 } : State).ea = false := by decide

/-- The first and the last populated address of page 5, the last page. -/
theorem witness_StoreToMemory :
    ramPopulated Cfg.default State.reset.ea = true ∧
      ramPopulated Cfg.default ({ State.reset with hr := 5, lr := 15 } : State).ea = true := by decide

/-- The first address past the populated ones. -/
theorem witness_StoreOutsideDataMemoryStops :
    ramPopulated Cfg.default ({ State.reset with hr := 6 } : State).ea = false := by decide

/-- Every way to the hypothesis, and both forms of port 6. -/
theorem witness_StoreToPort :
    (Instr.sar 7 = .sar 7 ∧ (0 : Nibble) = State.reset.ac) ∧
      (Instr.syr 4 = .syr 4 ∧ (0 : Nibble) = State.reset.yr) ∧ Instr.clr 0 = .clr 0 ∧
      State.reset.cfg.po6 = .po60 PlaTable.segmentDisplay ∧ cfgPo61.po6 = .po61 := by decide

theorem witness_AdditionToMemory : ramPopulated Cfg.default (withMem 8 8).ea = true := by decide

theorem witness_SubtractionToMemory : ramPopulated Cfg.default (withMem 0 1).ea = true := by decide

theorem witness_LogicToMemory : ramPopulated Cfg.default (withMem 15 15).ea = true := by decide

theorem witness_BranchesAndNop :
    ({ State.reset with st := 0b1000 } : State).zFlag = true ∧ State.reset.zFlag = false := by decide

/-- RTN with FSTK = 1, with FSTK = 0 that reloads, and with FSTK = 0 that stops. -/
theorem witness_CallAndReturn :
    State.reset.fstk = true ∧ State.reset.cfg.rtnEmpty = .reload ∧
      (({ underCfg { Cfg.default with rtnEmpty := .fault } with fstk := false } : State).fstk = false ∧
        ({ Cfg.default with rtnEmpty := .fault } : Cfg).rtnEmpty = .fault) := by decide

/-- A JAC at the end of a block of 16, and at the end of the address space. -/
theorem witness_JumpByAccumulator :
    ({ State.reset with pc := 0x10F } : State).pc = 0x10E + 1 ∧
      ({ State.reset with pc := 0x000 } : State).pc = 0xFFF + 1 := by decide

end Sys2Proof.Tests
end

section
/-! PROOFS. Encoding: how many bytes an instruction has (spec/30_encoding.md R80). The opcode map is read
row by row: rows 0 to B hold one-byte instructions only, rows C to F two-byte instructions only, and
`decode` takes the bytes that the map's entry asks for. -/

namespace Sys2Proof

/-! ### The rows of the opcode map (R85) -/

/-- The entry of the map is a one-byte instruction or none at all. -/
def FirstByte.IsOneByte : FirstByte → Prop
  | .one i => i.length = 1
  | .two _ => False
  | .unassigned => True

theorem mapRow0_isOneByte (l : Nat) : (mapRow0 l).IsOneByte := by
  unfold mapRow0
  split <;> constructor

theorem mapRow8_isOneByte (l : Nat) : (mapRow8 l).IsOneByte := by
  unfold mapRow8
  split <;> rfl

theorem mapRowR_isOneByte {below above : BitVec 3 → Instr} (hbelow : ∀ r, (below r).length = 1)
    (habove : ∀ r, (above r).length = 1) (b : Byte) : (mapRowR below above b).IsOneByte := by
  unfold mapRowR
  split
  · exact habove _
  · exact hbelow _

theorem mapRowG_isOneByte {test set clear invert : BitVec 2 → Instr} (htest : ∀ g, (test g).length = 1)
    (hset : ∀ g, (set g).length = 1) (hclear : ∀ g, (clear g).length = 1)
    (hinvert : ∀ g, (invert g).length = 1) (b : Byte) :
    (mapRowG test set clear invert b).IsOneByte := by
  unfold mapRowG
  split
  · exact htest _
  · exact hset _
  · exact hclear _
  · exact hinvert _

/-! ### The length bits and the map -/

/-- Bits 7..6 are `11` exactly in rows C to F of the map. -/
theorem isTwoByte_iff_row (b : Byte) : isTwoByte b = true ↔ 0xC ≤ (b.extractLsb' 4 4).toNat := by
  have hb : b.toNat < 256 := b.isLt
  simp only [isTwoByte, beq_iff_eq, ← BitVec.toNat_inj, BitVec.extractLsb'_toNat,
    Nat.shiftRight_eq_div_pow, BitVec.toNat_ofNat]
  omega

theorem isTwoByte_eq_true_iff (b : Byte) : isTwoByte b = true ↔ b.extractLsb' 6 2 = 0b11#2 :=
  beq_iff_eq

theorem classify_isOneByte {b : Byte} (hb : ¬ isTwoByte b = true) : (classify b).IsOneByte := by
  rw [isTwoByte_iff_row] at hb
  unfold classify
  split
  case h_1 => exact mapRow0_isOneByte _
  case h_2 => exact mapRowR_isOneByte (fun _ => rfl) (fun _ => rfl) b
  case h_3 => exact mapRowR_isOneByte (fun _ => rfl) (fun _ => rfl) b
  case h_4 => split <;> constructor
  case h_5 | h_6 | h_7 | h_8 => rfl
  case h_9 => exact mapRow8_isOneByte _
  case h_10 => rfl
  case h_11 | h_12 =>
    exact mapRowG_isOneByte (fun _ => rfl) (fun _ => rfl) (fun _ => rfl) (fun _ => rfl) b
  case h_13 | h_14 | h_15 => omega
  case h_16 =>
    simp only [imp_false] at *
    omega

theorem classify_eq_two {b : Byte} (hb : isTwoByte b = true) : ∃ op, classify b = .two op := by
  rw [isTwoByte_iff_row] at hb
  unfold classify
  split
  case h_13 | h_14 | h_15 | h_16 => exact ⟨_, rfl⟩
  all_goals omega

/-- R80: a one-byte entry of the map stands at a first byte whose length bits are not `11`. -/
theorem classify_one {b : Byte} {i : Instr} (h : classify b = .one i) :
    ¬ isTwoByte b = true ∧ i.length = 1 := by
  have hb : ¬ isTwoByte b = true := by
    intro hb
    obtain ⟨op, hop⟩ := classify_eq_two hb
    simp [h] at hop
  have hone := classify_isOneByte hb
  rw [h] at hone
  exact ⟨hb, hone⟩

/-- R80: a two-byte entry of the map stands at a first byte whose length bits are `11`. -/
theorem classify_two {b : Byte} {op : AddrOp} (h : classify b = .two op) : isTwoByte b = true := by
  by_contra hb
  have hone := classify_isOneByte hb
  rw [h] at hone
  exact hone

/-! ### What decodes -/

/-- Everything that a list of bytes can decode to: the one-byte instruction of the map, or the two-byte
instruction whose address the second byte completes. -/
theorem decode_cons_eq_ok {b : Byte} {tail rest : List Byte} {i : Instr}
    (h : decode (b :: tail) = .ok (i, rest)) :
    (classify b = .one i ∧ tail = rest) ∨
      ∃ op b1, classify b = .two op ∧ i = op.instr (assembleAp b b1) ∧ tail = b1 :: rest := by
  rw [decode] at h
  split at h
  next j hj =>
    cases h
    exact .inl ⟨hj, rfl⟩
  next => cases h
  next op hop =>
    split at h
    next => cases h
    next b1 rest' =>
      cases h
      exact .inr ⟨op, b1, hop, rfl, rfl⟩

theorem AddrOp.instr_length (op : AddrOp) (ap : ProgAddr) : (op.instr ap).length = 2 := by
  cases op <;> rfl

/-- R80: the two-byte instructions are BCS, BCC, JMP and CAL. -/
theorem Instr.length_eq_two_iff (i : Instr) :
    i.length = 2 ↔ ∃ ap, i = .bcs ap ∨ i = .bcc ap ∨ i = .jmp ap ∨ i = .cal ap := by
  constructor
  · intro h
    cases i
    case bcs ap | bcc ap | jmp ap | cal ap => exact ⟨ap, by simp⟩
    all_goals cases h
  · rintro ⟨ap, rfl | rfl | rfl | rfl⟩ <;> rfl

/-- Settles O4: the map's entry decides both the length bits of the first byte and the bytes taken. -/
theorem lengthDecidedByFirstByte : Obligations.LengthDecidedByFirstByte := by
  intro b tail i rest h
  simp only [ne_eq, ← isTwoByte_eq_true_iff]
  rw [← Instr.length_eq_two_iff]
  rcases decode_cons_eq_ok h with ⟨hone, htail⟩ | ⟨op, b1, htwo, rfl, htail⟩
  · obtain ⟨hb, hlen⟩ := classify_one hone
    simp [hb, hlen, htail]
  · have hb := classify_two htwo
    simp [hb, AddrOp.instr_length, htail]

end Sys2Proof
end

section
/-! PROOFS. Data transfer between AC, the pointer registers and an immediate (spec/40_data_transfer.md R106
to R111, R115 to R117): one rule for each register written together with EYR. -/

namespace Sys2Proof.Machine

variable (s : State) (v : Nibble) (b : Bool)

/-- R29: a load of AC resets EYR; the status register stays. -/
theorem State.toAc_eq : s.toAc v = { s with ac := v, eyr := false } := rfl

theorem State.setEyr_setLr : (s.setLr v).setEyr b = { s with lr := v, eyr := b } := rfl

theorem State.setEyr_setHr : (s.setHr v).setEyr b = { s with hr := v, eyr := b } := rfl

theorem State.setEyr_setYr : (s.setYr v).setEyr b = { s with yr := v, eyr := b } := rfl

end Sys2Proof.Machine

namespace Sys2Proof

open Machine

/-- Settles O44: each transfer is a write of its one target register from its source, EYR set exactly where
the target is the Y register. -/
theorem registerTransfers : Obligations.RegisterTransfers := by
  intro s i
  refine ⟨?lal, ?lah, ?lai, ?lli, ?lhi, ?lyi, ?sal, ?sah, ?say⟩
  case lal => exact congrArg Host.Outcome.next (s.toAc_eq s.lr)
  case lah => exact congrArg Host.Outcome.next (s.toAc_eq s.hr)
  case lai => exact congrArg Host.Outcome.next (s.toAc_eq i)
  case lli => exact congrArg Host.Outcome.next (s.setEyr_setLr i false)
  case lhi => exact congrArg Host.Outcome.next (s.setEyr_setHr i false)
  case lyi => exact congrArg Host.Outcome.next (s.setEyr_setYr i true)
  case sal => exact congrArg Host.Outcome.next (s.setEyr_setLr s.ac false)
  case sah => exact congrArg Host.Outcome.next (s.setEyr_setHr s.ac false)
  case say => exact congrArg Host.Outcome.next (s.setEyr_setYr s.ac true)

end Sys2Proof
end

section
/-! PROOFS. The branch instructions and NOP (spec/43_branch.md R176 to R179, spec/44_subroutine_misc.md
R189): one rule for a branch that is taken and one for a branch that is not, and the condition under which
each instruction branches. -/

namespace Sys2Proof.Machine

variable (s : State) (ap : ProgAddr)

/-- R176: a branch that is taken goes to its address and resets EYR. -/
theorem State.branchIf_true : s.branchIf true ap = { s with pc := ap, eyr := false } := rfl

/-- R176: a branch that is not taken resets EYR and leaves PC at the next instruction. -/
theorem State.branchIf_false : s.branchIf false ap = { s with eyr := false } := rfl

/-- R177: JMP always branches. -/
theorem exec_jmp_eq : exec (.jmp ap) s = .next (s.branchIf true ap) := rfl

/-- R178: BCS branches where Z = 1. -/
theorem exec_bcs_eq : exec (.bcs ap) s = .next (s.branchIf s.zFlag ap) := rfl

/-- R179: BCC branches where Z = 0. -/
theorem exec_bcc_eq : exec (.bcc ap) s = .next (s.branchIf (!s.zFlag) ap) := rfl

/-- R189: NOP resets EYR and does nothing else. -/
theorem exec_nop_eq : exec .nop s = .next { s with eyr := false } := rfl

end Sys2Proof.Machine

namespace Sys2Proof

open Machine

/-- Settles O58: each branch is its condition given to `State.branchIf`, so the value of Z decides which
of the two rules of a branch applies, the opposite one for BCS and BCC. -/
theorem branchesAndNop : Obligations.BranchesAndNop := by
  intro s ap
  refine ⟨?jmp, ?zSet, ?zClear, exec_nop_eq s⟩
  case jmp => rw [exec_jmp_eq, State.branchIf_true]
  case zSet =>
    intro hz
    rw [exec_bcs_eq, exec_bcc_eq, hz, Bool.not_true, State.branchIf_true, State.branchIf_false]
    exact ⟨rfl, rfl⟩
  case zClear =>
    intro hz
    rw [exec_bcs_eq, exec_bcc_eq, hz, Bool.not_false, State.branchIf_true, State.branchIf_false]
    exact ⟨rfl, rfl⟩

end Sys2Proof
end

section
/-! PROOFS. The state right after reset (spec/70_reset_and_hazards.md R241): which flags it clears, and what
a cleared H and a set FSTK rule out in any state. -/

namespace Sys2Proof.Machine

/-- R210: while H is 0 no hold goes on, whatever the type of the hold. -/
theorem State.holding_eq_false {s : State} (hH : s.hFlag = false) : s.holding = false := by
  rw [State.holding, hH, Bool.and_false]

/-- R203: while FSTK is set no interrupt is accepted. -/
theorem State.intEnabled_eq_false {s : State} (hF : s.fstk = true) : s.intEnabled = false := by
  rw [State.intEnabled, hF, Bool.not_true, Bool.and_false, Bool.false_and]

theorem State.reset_fstk : State.reset.fstk = true := rfl

theorem State.reset_hFlag : State.reset.hFlag = false := rfl

theorem State.reset_dFlag : State.reset.dFlag = false := rfl

end Sys2Proof.Machine

namespace Sys2Proof

open Machine

/-- Settles O15: what `State.reset` gives a register is read off it; that it does not hold and accepts no
interrupt follows from the H and the FSTK it gives. -/
theorem resetStateAsStated : Obligations.ResetStateAsStated := by
  refine ⟨?pc, State.reset_fstk, ?il, State.reset_hFlag, State.reset_dFlag, ?eyr, ?ports, ?holding, ?interrupt⟩
  case pc | il | eyr | ports => rfl
  case holding => exact State.holding_eq_false State.reset_hFlag
  case interrupt => exact State.intEnabled_eq_false State.reset_fstk

end Sys2Proof
end

section
/-! PROOFS. The status register flag by flag (spec/10_state.md R21 to R25): what each update of ST leaves in
Z, C, D and H. -/

-- The option changes no statement (the section has no `variable`). It keeps these proofs in the main thread,
-- in their order, while each of the tests above still holds a thread: the memory of one compile is bounded.
set_option deprecated.oldSectionVars true

namespace Sys2Proof.Machine

open Safety

/-! ### Words of four flags -/

theorem flags_getLsbD (v : Nibble) :
    flags (v.getLsbD 3) (v.getLsbD 2) (v.getLsbD 1) (v.getLsbD 0) = v := by
  revert v
  decide

theorem putBit_three (v : Nibble) (z : Bool) :
    putBit v 3 z = flags z (v.getLsbD 2) (v.getLsbD 1) (v.getLsbD 0) := by
  revert v z
  decide

theorem putBit_two (v : Nibble) (c : Bool) :
    putBit v 2 c = flags (v.getLsbD 3) c (v.getLsbD 1) (v.getLsbD 0) := by
  revert v c
  decide

theorem and_clearing_h (v : Nibble) :
    v &&& 0b1110#4 = flags (v.getLsbD 3) (v.getLsbD 2) (v.getLsbD 1) false := by
  revert v
  decide

theorem and_clearing_d_h (v : Nibble) :
    v &&& 0b1100#4 = flags (v.getLsbD 3) (v.getLsbD 2) false false := by
  revert v
  decide

/-! ### The flags of a state -/

@[simp] theorem flags_bit_z (z c d h : Bool) : (flags z c d h).getLsbD 3 = z := by
  revert z c d h
  decide

@[simp] theorem flags_bit_c (z c d h : Bool) : (flags z c d h).getLsbD 2 = c := by
  revert z c d h
  decide

@[simp] theorem flags_bit_d (z c d h : Bool) : (flags z c d h).getLsbD 1 = d := by
  revert z c d h
  decide

@[simp] theorem flags_bit_h (z c d h : Bool) : (flags z c d h).getLsbD 0 = h := by
  revert z c d h
  decide

theorem State.flags_eq_st (s : State) : flags s.zFlag s.cFlag s.dFlag s.hFlag = s.st :=
  flags_getLsbD s.st

/-- R22: Z takes the value, the other flags stay. -/
theorem State.setZ_eq (s : State) (z : Bool) :
    s.setZ z = { s with st := flags z s.cFlag s.dFlag s.hFlag } :=
  congrArg s.setSt (putBit_three s.st z)

/-- R23: C takes the value, the other flags stay. -/
theorem State.setC_eq (s : State) (c : Bool) :
    s.setC c = { s with st := flags s.zFlag c s.dFlag s.hFlag } :=
  congrArg s.setSt (putBit_two s.st c)

/-- R130, R131: C is the carry, Z says whether the four bits are 0. -/
theorem State.setZC_eq (s : State) (r : Nibble × Bool) :
    s.setZC r = { s with st := flags (isZero r.1) r.2 s.dFlag s.hFlag } := by
  rw [State.setZC, State.setZ_eq, State.setC_eq]
  simp only [State.cFlag, State.dFlag, State.hFlag, flags_bit_c, flags_bit_d, flags_bit_h]

/-- R212: the end of a hold resets H. -/
theorem State.releaseHold_eq (s : State) :
    s.releaseHold = { s with st := flags s.zFlag s.cFlag s.dFlag false } :=
  congrArg s.setSt (and_clearing_h s.st)

end Sys2Proof.Machine
end

section
/-! PROOFS. Encoding and decoding as inverses (spec/30_encoding.md R82 to R86). The map of the first byte is a
table of 256 entries: `classify_describes` checks it entry by entry against the encoder. The two bytes of an
address are rejoined and parted as numbers, and the rows of the mask and match table exclude each other. -/

-- As in the section of the flags: no `variable` here, and the proofs stay in the main thread.
set_option deprecated.oldSectionVars true

namespace Sys2Proof

/-! ### The decoder by the entry of the map -/

theorem decode_cons_of_one {b : Byte} {i : Instr} (h : classify b = .one i) (rest : List Byte) :
    decode (b :: rest) = .ok (i, rest) := by
  simp only [decode, h]

theorem decode_cons_of_two {b : Byte} {op : AddrOp} (h : classify b = .two op) (b1 : Byte)
    (rest : List Byte) : decode (b :: b1 :: rest) = .ok (op.instr (assembleAp b b1), rest) := by
  simp only [decode, h]

theorem decode_cons_of_unassigned {b : Byte} (h : classify b = .unassigned) (rest : List Byte) :
    decode (b :: rest) = .error (.unassigned b) := by
  simp only [decode, h]

/-! ### Two-byte instructions -/

/-- R85: the high nibble of the first byte of a two-byte instruction. -/
def AddrOp.nibble : AddrOp → Nibble
  | .bcs => 0xC
  | .bcc => 0xD
  | .jmp => 0xE
  | .cal => 0xF

theorem AddrOp.encode_instr (op : AddrOp) (ap : ProgAddr) :
    encode (op.instr ap) = encodeAddr op.nibble ap := by
  cases op <;> rfl

theorem AddrOp.instr_wellFormed (op : AddrOp) (ap : ProgAddr) : (op.instr ap).wellFormed = true := by
  cases op <;> rfl

theorem AddrOp.instr_mnemonic (op : AddrOp) (ap : ProgAddr) :
    (op.instr ap).mnemonic = (op.instr 0).mnemonic := by
  cases op <;> rfl

theorem classify_of_nibble {b : Byte} {op : AddrOp} (h : b.extractLsb' 4 4 = op.nibble) :
    classify b = .two op := by
  cases op <;> simp [classify, h, AddrOp.nibble]

theorem nibble_append_toNat (hi lo : Nibble) : (hi ++ lo : Byte).toNat = hi.toNat * 16 + lo.toNat := by
  calc (hi ++ lo : Byte).toNat = hi.toNat <<< 4 ||| lo.toNat := BitVec.toNat_append hi lo
    _ = hi.toNat * 16 + lo.toNat := by
        rw [← Nat.shiftLeft_add_eq_or_of_lt lo.isLt, Nat.shiftLeft_eq]

theorem highNibble_toNat (b : Byte) : (b.extractLsb' 4 4).toNat = b.toNat / 16 := by
  simp only [BitVec.extractLsb'_toNat, Nat.shiftRight_eq_div_pow]
  omega

/-- R83: `AP = b1[7:4] ∘ b1[3:0] ∘ b0[3:0]` as a number. -/
theorem assembleAp_toNat (b0 b1 : Byte) :
    (assembleAp b0 b1).toNat = b1.toNat * 16 + b0.toNat % 16 := by
  have hlow : b0.toNat % 16 < 2 ^ 4 := Nat.mod_lt _ (by decide)
  calc (assembleAp b0 b1).toNat = b1.toNat <<< 4 ||| (b0.extractLsb' 0 4).toNat :=
        BitVec.toNat_append b1 _
    _ = b1.toNat <<< 4 ||| b0.toNat % 16 := by rw [BitVec.extractLsb'_toNat, Nat.shiftRight_zero]
    _ = b1.toNat * 16 + b0.toNat % 16 := by
        rw [← Nat.shiftLeft_add_eq_or_of_lt hlow, Nat.shiftLeft_eq]

/-- R83: the address is rebuilt from the two bytes that hold it. -/
theorem assembleAp_of_encodeAddr (hi : Nibble) (ap : ProgAddr) :
    assembleAp (hi ++ ap.extractLsb' 0 4) (ap.extractLsb' 4 8) = ap := by
  apply BitVec.eq_of_toNat_eq
  rw [assembleAp_toNat, nibble_append_toNat]
  simp only [BitVec.extractLsb'_toNat, Nat.shiftRight_eq_div_pow]
  omega

/-- R83: the two bytes are rebuilt from the address they hold. -/
theorem encodeAddr_assembleAp (b0 b1 : Byte) :
    encodeAddr (b0.extractLsb' 4 4) (assembleAp b0 b1) = [b0, b1] := by
  have hb0 : (b0.extractLsb' 4 4 ++ (assembleAp b0 b1).extractLsb' 0 4 : Byte) = b0 := by
    apply BitVec.eq_of_toNat_eq
    rw [nibble_append_toNat, highNibble_toNat, BitVec.extractLsb'_toNat, assembleAp_toNat]
    omega
  have hb1 : (assembleAp b0 b1).extractLsb' 4 8 = b1 := by
    apply BitVec.eq_of_toNat_eq
    rw [BitVec.extractLsb'_toNat, Nat.shiftRight_eq_div_pow, assembleAp_toNat]
    omega
  rw [encodeAddr, hb0, hb1]

/-! ### The map of the first byte, entry by entry -/

/-- R86: the first bytes that are no instruction. -/
def unassignedBytes : List Byte :=
  [0x0A, 0x0B, 0x30, 0x31, 0x32, 0x33, 0x38, 0x39, 0x3A, 0x3B, 0x3C, 0x3D, 0x3E, 0x3F]

/-- What R82, R85 and R86 ask of the entry of the map at `b`: a one-byte instruction is well formed and
encoded by `b`, and a two-byte one has its opcode in the high nibble. -/
def FirstByte.describes (b : Byte) : FirstByte → Bool
  | .one i => i.wellFormed && encode i == [b]
  | .two op => b.extractLsb' 4 4 == op.nibble
  | .unassigned => unassignedBytes.contains b

/-- Rows 0 to 3 of the map. -/
theorem describes_rows_0_3 (p : BitVec 2) (lo : Nibble) :
    (classify (0#2 ++ p ++ lo)).describes (0#2 ++ p ++ lo) = true := by
  revert p lo
  decide

/-- Rows 4 to 7 of the map. -/
theorem describes_rows_4_7 (p : BitVec 2) (lo : Nibble) :
    (classify (1#2 ++ p ++ lo)).describes (1#2 ++ p ++ lo) = true := by
  revert p lo
  decide

/-- Rows 8 to B of the map. -/
theorem describes_rows_8_B (p : BitVec 2) (lo : Nibble) :
    (classify (2#2 ++ p ++ lo)).describes (2#2 ++ p ++ lo) = true := by
  revert p lo
  decide

/-- Rows C to F of the map. -/
theorem describes_rows_C_F (p : BitVec 2) (lo : Nibble) :
    (classify (3#2 ++ p ++ lo)).describes (3#2 ++ p ++ lo) = true := by
  revert p lo
  decide

theorem nibbles_append (b : Byte) : (b.extractLsb' 4 4 ++ b.extractLsb' 0 4 : Byte) = b := by
  apply BitVec.eq_of_toNat_eq
  rw [nibble_append_toNat, highNibble_toNat, BitVec.extractLsb'_toNat]
  omega

theorem nibble_halves (hi : Nibble) : ∃ q p : BitVec 2, hi = q ++ p ∧ (q = 0 ∨ q = 1 ∨ q = 2 ∨ q = 3) := by
  refine ⟨hi.extractLsb' 2 2, hi.extractLsb' 0 2, ?_⟩
  revert hi
  decide

theorem classify_describes (b : Byte) : (classify b).describes b = true := by
  rw [← nibbles_append b]
  generalize b.extractLsb' 0 4 = lo
  obtain ⟨q, p, hq, rfl | rfl | rfl | rfl⟩ := nibble_halves (b.extractLsb' 4 4)
  all_goals rw [hq]
  · exact describes_rows_0_3 p lo
  · exact describes_rows_4_7 p lo
  · exact describes_rows_8_B p lo
  · exact describes_rows_C_F p lo

theorem classify_one_describes {b : Byte} {i : Instr} (h : classify b = .one i) :
    i.wellFormed = true ∧ encode i = [b] := by
  simpa [h, FirstByte.describes] using classify_describes b

theorem classify_two_describes {b : Byte} {op : AddrOp} (h : classify b = .two op) :
    b.extractLsb' 4 4 = op.nibble := by
  simpa [h, FirstByte.describes] using classify_describes b

theorem classify_unassignedBytes :
    (unassignedBytes.all fun b => classify b == .unassigned) = true := by
  decide

theorem classify_eq_unassigned_iff (b : Byte) : classify b = .unassigned ↔ b ∈ unassignedBytes := by
  constructor
  · intro h
    simpa [h, FirstByte.describes] using classify_describes b
  · intro h
    exact eq_of_beq (List.all_eq_true.mp classify_unassignedBytes b h)

/-! ### The first byte of an encoding -/

theorem classify_registers (r : BitVec 3) :
    classify (0b00010#5 ++ r) = .one (.lar r) ∧ classify (0b00011#5 ++ r) = .one (.ltr r) ∧
      classify (0b00101#5 ++ r) = .one (.sar r) ∧ classify (0b00100#5 ++ r) = .one (.clr r) := by
  revert r
  decide

theorem classify_syr (r : BitVec 3) (h : (Instr.syr r).wellFormed = true) :
    classify (0b001101#6 ++ r.extractLsb' 0 2) = .one (.syr r) := by
  revert r
  decide

theorem classify_immediates (n : Nibble) :
    classify (0b0100#4 ++ n) = .one (.lai n) ∧ classify (0b0110#4 ++ n) = .one (.lli n) ∧
      classify (0b0111#4 ++ n) = .one (.lhi n) ∧ classify (0b0101#4 ++ n) = .one (.lyi n) ∧
      classify (0b1001#4 ++ n) = .one (.adi n) := by
  revert n
  decide

theorem classify_bits_of_ac (g : BitVec 2) :
    classify (0b101000#6 ++ g) = .one (.tba g) ∧ classify (0b101001#6 ++ g) = .one (.sba g) ∧
      classify (0b101010#6 ++ g) = .one (.cba g) ∧ classify (0b101011#6 ++ g) = .one (.iba g) := by
  revert g
  decide

theorem classify_bits_of_st (g : BitVec 2) :
    classify (0b101100#6 ++ g) = .one (.tbs g) ∧ classify (0b101101#6 ++ g) = .one (.sbs g) ∧
      classify (0b101110#6 ++ g) = .one (.cbs g) ∧ classify (0b101111#6 ++ g) = .one (.ibs g) := by
  revert g
  decide

theorem classify_addresses (low : Nibble) :
    classify (0b1110#4 ++ low) = .two .jmp ∧ classify (0b1100#4 ++ low) = .two .bcs ∧
      classify (0b1101#4 ++ low) = .two .bcc ∧ classify (0b1111#4 ++ low) = .two .cal := by
  revert low
  decide

theorem decode_encodeAddr {op : AddrOp} (hmap : ∀ low : Nibble, classify (op.nibble ++ low) = .two op)
    (ap : ProgAddr) (rest : List Byte) :
    decode (encode (op.instr ap) ++ rest) = .ok (op.instr ap, rest) := by
  have hdec := decode_cons_of_two (hmap (ap.extractLsb' 0 4)) (ap.extractLsb' 4 8) rest
  rw [assembleAp_of_encodeAddr] at hdec
  rw [AddrOp.encode_instr]
  exact hdec

/-! ### The mask and match table -/

/-- Two rows that no byte can fit both: their patterns differ in a bit that both masks look at. -/
def OpcodeRow.conflicts (r q : OpcodeRow) : Bool :=
  (r.pattern.toNat ^^^ q.pattern.toNat) &&& (r.mask.toNat &&& q.mask.toNat) != 0

/-- Each row conflicts with every later one. -/
def allConflict : List OpcodeRow → Bool
  | [] => true
  | r :: rows => rows.all r.conflicts && allConflict rows

theorem opcodeRows_allConflict : allConflict opcodeRows = true := by
  rfl

theorem OpcodeRow.not_fits_of_conflicts {r q : OpcodeRow} (h : r.conflicts q = true) {b : Byte}
    (hr : r.fits b = true) : ¬ q.fits b = true := by
  intro hq
  simp only [OpcodeRow.fits, beq_iff_eq] at hr hq
  have hzero : (r.pattern.toNat ^^^ q.pattern.toNat) &&& (r.mask.toNat &&& q.mask.toNat) = 0 := by
    rw [← hr, ← hq, BitVec.toNat_and, BitVec.toNat_and]
    apply Nat.eq_of_testBit_eq
    intro k
    simp only [Nat.testBit_and, Nat.testBit_xor, Nat.zero_testBit]
    cases b.toNat.testBit k <;> cases r.mask.toNat.testBit k <;> cases q.mask.toNat.testBit k <;> rfl
  simp [OpcodeRow.conflicts, hzero] at h

/-- A byte fits one row at most of a table whose rows conflict. -/
theorem filter_fits_eq {rows : List OpcodeRow} (hrows : allConflict rows = true) {b : Byte} {r : OpcodeRow}
    (hmem : r ∈ rows) (hfits : r.fits b = true) : (rows.filter fun row => row.fits b) = [r] := by
  induction rows with
  | nil => cases hmem
  | cons q rows ih =>
    simp only [allConflict, Bool.and_eq_true, List.all_eq_true] at hrows
    obtain ⟨hq, hrest⟩ := hrows
    rcases List.mem_cons.mp hmem with rfl | hmem
    · rw [List.filter_cons_of_pos (p := fun row : OpcodeRow => row.fits b) hfits, List.filter_eq_nil_iff.mpr]
      exact fun q' hq' => OpcodeRow.not_fits_of_conflicts (hq q' hq') hfits
    · rw [List.filter_cons_of_neg, ih hrest hmem]
      exact fun hqfits => OpcodeRow.not_fits_of_conflicts (hq r hmem) hqfits hfits

/-- The laws of `Sys2Proof.Laws`, made per instruction, hold of every instruction. -/
theorem encodedBytes (i : Instr) : Laws.EncodedBytes.Statement i :=
  match i with
  | .lar r => Laws.EncodedBytes.lar r
  | .ltr r => Laws.EncodedBytes.ltr r
  | .lam => Laws.EncodedBytes.lam
  | .ltm => Laws.EncodedBytes.ltm
  | .lsm => Laws.EncodedBytes.lsm
  | .lal => Laws.EncodedBytes.lal
  | .lah => Laws.EncodedBytes.lah
  | .lai n => Laws.EncodedBytes.lai n
  | .lli n => Laws.EncodedBytes.lli n
  | .lhi n => Laws.EncodedBytes.lhi n
  | .lyi n => Laws.EncodedBytes.lyi n
  | .sar r => Laws.EncodedBytes.sar r
  | .sam => Laws.EncodedBytes.sam
  | .ssm => Laws.EncodedBytes.ssm
  | .sal => Laws.EncodedBytes.sal
  | .sah => Laws.EncodedBytes.sah
  | .say => Laws.EncodedBytes.say
  | .syr r => Laws.EncodedBytes.syr r
  | .clr r => Laws.EncodedBytes.clr r
  | .adi n => Laws.EncodedBytes.adi n
  | .ada => Laws.EncodedBytes.ada
  | .adm => Laws.EncodedBytes.adm
  | .aca => Laws.EncodedBytes.aca
  | .acm => Laws.EncodedBytes.acm
  | .sua => Laws.EncodedBytes.sua
  | .sum => Laws.EncodedBytes.sum
  | .ora => Laws.EncodedBytes.ora
  | .orm => Laws.EncodedBytes.orm
  | .eoa => Laws.EncodedBytes.eoa
  | .eom => Laws.EncodedBytes.eom
  | .cma => Laws.EncodedBytes.cma
  | .cmm => Laws.EncodedBytes.cmm
  | .ica => Laws.EncodedBytes.ica
  | .icm => Laws.EncodedBytes.icm
  | .icl => Laws.EncodedBytes.icl
  | .ich => Laws.EncodedBytes.ich
  | .tsm => Laws.EncodedBytes.tsm
  | .tba g => Laws.EncodedBytes.tba g
  | .tbs g => Laws.EncodedBytes.tbs g
  | .sba g => Laws.EncodedBytes.sba g
  | .sbs g => Laws.EncodedBytes.sbs g
  | .cba g => Laws.EncodedBytes.cba g
  | .cbs g => Laws.EncodedBytes.cbs g
  | .iba g => Laws.EncodedBytes.iba g
  | .ibs g => Laws.EncodedBytes.ibs g
  | .jmp ap => Laws.EncodedBytes.jmp ap
  | .bcs ap => Laws.EncodedBytes.bcs ap
  | .bcc ap => Laws.EncodedBytes.bcc ap
  | .cal ap => Laws.EncodedBytes.cal ap
  | .rtn => Laws.EncodedBytes.rtn
  | .jac => Laws.EncodedBytes.jac
  | .nop => Laws.EncodedBytes.nop

/-- R85: the first byte of an encoding fits its instruction's row and no other. -/
theorem fitting_rows {i : Instr} {b : Byte} {more : List Byte} (hwf : i.wellFormed = true)
    (henc : encode i = b :: more) :
    (opcodeRows.filter fun row => row.fits b).map OpcodeRow.mnemonic = [i.mnemonic] := by
  obtain ⟨-, -, hrow⟩ := encodedBytes i hwf
  rw [henc, List.headD_cons, List.any_eq_true] at hrow
  obtain ⟨r, hmem, hr⟩ := hrow
  rw [Bool.and_eq_true, beq_iff_eq] at hr
  rw [filter_fits_eq opcodeRows_allConflict hmem hr.2, List.map_singleton, hr.1]

/-! ### The obligations -/

/-- Settles O1: the first byte of each encoding stands in the map at its instruction, operand bits
included, and a two-byte instruction gets its address back from both bytes. -/
theorem decodeOfEncodeIsIdentity : Obligations.DecodeOfEncodeIsIdentity := by
  intro i rest hwf
  cases i
  case jmp ap => exact decode_encodeAddr (op := .jmp) (fun low => (classify_addresses low).1) ap rest
  case bcs ap => exact decode_encodeAddr (op := .bcs) (fun low => (classify_addresses low).2.1) ap rest
  case bcc ap => exact decode_encodeAddr (op := .bcc) (fun low => (classify_addresses low).2.2.1) ap rest
  case cal ap => exact decode_encodeAddr (op := .cal) (fun low => (classify_addresses low).2.2.2) ap rest
  case syr r => exact decode_cons_of_one (classify_syr r hwf) rest
  case lar r => exact decode_cons_of_one (classify_registers r).1 rest
  case ltr r => exact decode_cons_of_one (classify_registers r).2.1 rest
  case sar r => exact decode_cons_of_one (classify_registers r).2.2.1 rest
  case clr r => exact decode_cons_of_one (classify_registers r).2.2.2 rest
  case lai n => exact decode_cons_of_one (classify_immediates n).1 rest
  case lli n => exact decode_cons_of_one (classify_immediates n).2.1 rest
  case lhi n => exact decode_cons_of_one (classify_immediates n).2.2.1 rest
  case lyi n => exact decode_cons_of_one (classify_immediates n).2.2.2.1 rest
  case adi n => exact decode_cons_of_one (classify_immediates n).2.2.2.2 rest
  case tba g => exact decode_cons_of_one (classify_bits_of_ac g).1 rest
  case sba g => exact decode_cons_of_one (classify_bits_of_ac g).2.1 rest
  case cba g => exact decode_cons_of_one (classify_bits_of_ac g).2.2.1 rest
  case iba g => exact decode_cons_of_one (classify_bits_of_ac g).2.2.2 rest
  case tbs g => exact decode_cons_of_one (classify_bits_of_st g).1 rest
  case sbs g => exact decode_cons_of_one (classify_bits_of_st g).2.1 rest
  case cbs g => exact decode_cons_of_one (classify_bits_of_st g).2.2.1 rest
  case ibs g => exact decode_cons_of_one (classify_bits_of_st g).2.2.2 rest
  all_goals exact decode_cons_of_one rfl rest

/-- Settles O2: a one-byte instruction is the map's entry at its byte, and the two bytes of an FA
instruction are rebuilt from its opcode nibble and its address. -/
theorem encodeOfDecodeIsIdentity : Obligations.EncodeOfDecodeIsIdentity := by
  intro bytes i rest h
  cases bytes with
  | nil => cases h
  | cons b tail =>
    rcases decode_cons_eq_ok h with ⟨hone, rfl⟩ | ⟨op, b1, htwo, rfl, rfl⟩
    · obtain ⟨hwf, henc⟩ := classify_one_describes hone
      exact ⟨hwf, by rw [henc]; rfl⟩
    · have hnib := classify_two_describes htwo
      refine ⟨op.instr_wellFormed _, ?_⟩
      rw [AddrOp.encode_instr, ← hnib, encodeAddr_assembleAp]
      rfl

/-- Settles O3: what decodes was encoded, the first byte of an encoding fits its own row, and rows
conflict in pairs. -/
theorem decoderAgreesWithMaskTable : Obligations.DecoderAgreesWithMaskTable := by
  intro b tail i rest h
  obtain ⟨hwf, hbytes⟩ := encodeOfDecodeIsIdentity (b :: tail) i rest h
  cases henc : encode i with
  | nil =>
    obtain ⟨hlen, -⟩ := encodedBytes i hwf
    rw [henc] at hlen
    cases i <;> cases hlen
  | cons b' more =>
    rw [henc, List.cons_append] at hbytes
    obtain ⟨rfl, -⟩ := List.cons.inj hbytes
    exact fitting_rows hwf henc

/-- Settles O5: the high nibble of the first byte names the opcode, and the address is the number whose
digits the other three nibbles are. -/
theorem branchTargetAssembledFromBothBytes : Obligations.BranchTargetAssembledFromBothBytes := by
  intro b0 b1 _
  have both (op : AddrOp) (h : b0.toNat / 16 = op.nibble.toNat) :
      decode [b0, b1] = .ok (op.instr (assembleAp b0 b1), []) ∧
        encode (op.instr (assembleAp b0 b1)) = [b0, b1] := by
    have hnib : b0.extractLsb' 4 4 = op.nibble := by
      apply BitVec.eq_of_toNat_eq
      rw [highNibble_toNat, h]
    refine ⟨decode_cons_of_two (classify_of_nibble hnib) b1 [], ?_⟩
    rw [AddrOp.encode_instr, ← hnib, encodeAddr_assembleAp]
  exact ⟨assembleAp b0 b1, assembleAp_toNat b0 b1, both .bcs, both .bcc, both .jmp, both .cal⟩

/-- Settles O6: each word is evaluated through the map; no general rule is at stake. -/
theorem sampleWordsDecode : Obligations.SampleWordsDecode :=
  ⟨rfl, rfl, rfl, rfl, rfl, rfl, rfl, rfl, rfl, rfl, rfl, rfl⟩

end Sys2Proof
end

section
/-! PROOFS. Data memory as cells (spec/20_memory.md R60 to R64, R72): reading after a write, and that the
canonical form is determined by what is read. -/

namespace Sys2Proof.Machine

open Safety

/-! ### Reading after a write -/

theorem Memory.read_write (m : List (Nat × Nibble)) (a b : DataAddr) (v : Nibble) :
    Memory.read (Memory.write m a v) b = if b = a then v else Memory.read m b := by
  unfold Memory.read Memory.write
  split
  next hv =>
    simp only [lookupCell_removeCell, BitVec.toNat_inj]
    split
    · exact hv.symm
    · rfl
  next =>
    simp only [lookupCell_insertCell, BitVec.toNat_inj]
    split <;> rfl

/-- R64: a write to data memory stores its value in its one word, whatever becomes of the status
register. -/
theorem stores_write (s : State) (a : DataAddr) (v st : Nibble) :
    Stores s { s with ram := Memory.write s.ram a v, st := st } a v := by
  refine ⟨?_, fun b hb => ?_⟩
  · rw [Memory.read_write, if_pos rfl]
  · rw [Memory.read_write, if_neg hb]

/-! ### Lists of cells that rise -/

variable {w : Nat}

theorem lookupCell_eq_none_of_lt (m : List (Nat × BitVec w)) {low a : Nat} (hm : cellsRise low m = true)
    (ha : a < low) : lookupCell m a = none := by
  induction m generalizing low with
  | nil => rfl
  | cons c m ih =>
    simp only [cellsRise, Bool.and_eq_true, decide_eq_true_eq] at hm
    rw [lookupCell, if_neg (by omega)]
    exact ih hm.2 (by omega)

/-- The first cell of a rising list that agrees with another one in every lookup is the first cell of that
one too, because the other list has no lower address. -/
theorem cellsRise_ext (m n : List (Nat × BitVec w)) {low : Nat} (hm : cellsRise low m = true)
    (hn : cellsRise low n = true) (h : ∀ a, lookupCell m a = lookupCell n a) : m = n := by
  induction m generalizing n low with
  | nil =>
    cases n with
    | nil => rfl
    | cons d n => simpa [lookupCell] using h d.1
  | cons c m ih =>
    cases n with
    | nil => simpa [lookupCell] using h c.1
    | cons d n =>
      obtain ⟨b, v⟩ := c
      obtain ⟨k, u⟩ := d
      simp only [cellsRise, Bool.and_eq_true, decide_eq_true_eq] at hm hn
      have hkey : b = k := by
        have hb := h b
        have hk := h k
        simp only [lookupCell, if_true] at hb hk
        rcases lt_trichotomy b k with hlt | heq | hgt
        · rw [if_neg (by omega), lookupCell_eq_none_of_lt n hn.2 (by omega)] at hb
          cases hb
        · exact heq
        · rw [if_neg (by omega), lookupCell_eq_none_of_lt m hm.2 (by omega)] at hk
          cases hk
      subst hkey
      have hval : v = u := by simpa [lookupCell] using h b
      subst hval
      rw [ih n hm.2 hn.2 fun a => ?_]
      by_cases ha : a = b
      · rw [lookupCell_eq_none_of_lt m hm.2 (by omega), lookupCell_eq_none_of_lt n hn.2 (by omega)]
      · simpa [lookupCell, ha] using h a

/-! ### The canonical form -/

theorem mem_of_lookupCell {m : List (Nat × BitVec w)} {a : Nat} {v : BitVec w}
    (h : lookupCell m a = some v) : (a, v) ∈ m := by
  induction m with
  | nil => cases h
  | cons c m ih =>
    rw [lookupCell] at h
    split at h
    next ha =>
      cases h
      exact ha ▸ List.mem_cons_self
    next => exact List.mem_cons_of_mem _ (ih h)

theorem Memory.wf_iff (m : List (Nat × Nibble)) :
    Memory.wf m = true ↔ cellsRise 0 m = true ∧ ∀ c ∈ m, c.1 < 256 ∧ c.2 ≠ unwrittenWord := by
  simp [Memory.wf]

/-- In the canonical form a cell is listed where, and only where, a read gives another word than an
unlisted one. -/
theorem Memory.lookupCell_of_wf {m : List (Nat × Nibble)} (hm : Memory.wf m = true) (a : Nat) :
    lookupCell m a =
      if a < 256 ∧ Memory.read m (BitVec.ofNat 8 a) ≠ unwrittenWord then
        some (Memory.read m (BitVec.ofNat 8 a))
      else none := by
  have hcells := ((Memory.wf_iff m).mp hm).2
  cases hl : lookupCell m a with
  | some v =>
    obtain ⟨ha, hv⟩ := hcells _ (mem_of_lookupCell hl)
    have hread : Memory.read m (BitVec.ofNat 8 a) = v := by
      rw [Memory.read, BitVec.toNat_ofNat, Nat.mod_eq_of_lt ha, hl]
      rfl
    rw [hread, if_pos ⟨ha, hv⟩]
  | none =>
    refine (if_neg ?_).symm
    rintro ⟨ha, hne⟩
    rw [Memory.read, BitVec.toNat_ofNat, Nat.mod_eq_of_lt ha, hl] at hne
    exact hne rfl

end Sys2Proof.Machine

namespace Sys2Proof

open Machine

/-- Settles O35: a write inserts or removes the one cell, and both are seen by that address only. -/
theorem memoryReadAfterWrite : Obligations.MemoryReadAfterWrite := Memory.read_write

/-- Settles O36: in the canonical form the reads determine every lookup, and the lookups of a rising list
determine the list. -/
theorem canonicalMemoryDeterminedByReads : Obligations.CanonicalMemoryDeterminedByReads := by
  intro m n hm hn hread
  refine cellsRise_ext m n ((Memory.wf_iff m).mp hm).1 ((Memory.wf_iff n).mp hn).1 fun a => ?_
  rw [Memory.lookupCell_of_wf hm, Memory.lookupCell_of_wf hn, hread]

end Sys2Proof
end

section
/-! PROOFS. Operands (spec/10_state.md R37 to R47): the bits of the decode matrix and of a port of mixed
direction, the words of the PLA, and the output pins. -/

-- As in the section of the flags: no `variable` here, and the proofs stay in the main thread.
set_option deprecated.oldSectionVars true

namespace Sys2Proof.Machine

/-! ### The decode matrix and the PLA -/

/-- R44: a line is the product of the literals its designation selects. -/
theorem decodeLine_iff (b : Byte) (d : Nibble) :
    decodeLine b d = true ↔ ∀ j, j < 4 →
      (b.getLsbD (2 * j) = false ∨ d.getLsbD j = true) ∧
        (b.getLsbD (2 * j + 1) = false ∨ d.getLsbD j = false) := by
  simp [decodeLine]

/-- A line that selects no literal is the empty product. -/
theorem decodeLine_zero (d : Nibble) : decodeLine 0x00 d = true := by
  revert d
  decide

/-- R41: line i of the matrix stands in bit i of Register 5. -/
theorem decodeImage_getLsbD (m : DecodeMatrix) (d : Nibble) {i : Nat} {b : Byte}
    (h : [m.dec0, m.dec1, m.dec2, m.dec3, m.dec4][i]? = some b) :
    (decodeImage m d).getLsbD i = decodeLine b d := by
  have bits (l0 l1 l2 l3 l4 : Bool) (k : Fin 5) :
      (BitVec.ofBool l4 ++ BitVec.ofBool l3 ++ BitVec.ofBool l2 ++ BitVec.ofBool l1 ++
        BitVec.ofBool l0).getLsbD k = [l0, l1, l2, l3, l4][k] := by
    revert l0 l1 l2 l3 l4 k
    decide
  obtain ⟨hi, rfl⟩ := List.getElem?_eq_some_iff.mp h
  refine (bits _ _ _ _ _ ⟨i, hi⟩).trans ?_
  exact List.getElem_map (l := [m.dec0, m.dec1, m.dec2, m.dec3, m.dec4]) (fun b => decodeLine b d)

/-- R46: the PLA is addressed by the datum. -/
theorem getElem?_plaTableWord (t : PlaTable) (d : Nibble) :
    [t.pla0, t.pla1, t.pla2, t.pla3, t.pla4, t.pla5, t.pla6, t.pla7, t.pla8, t.pla9, t.plaA, t.plaB,
      t.plaC, t.plaD, t.plaE, t.plaF][d.toNat]? = some (plaTableWord t d) := by
  have hd : d.toNat < 16 := d.isLt
  unfold plaTableWord
  split
  case h_16 =>
    simp only [imp_false] at *
    have hlast : d.toNat = 15 := by omega
    rw [hlast]
    rfl
  all_goals simp [*]

/-! ### Directions -/

/-- R40: the register in the output bits, the pins in the input bits. -/
theorem mixBits_getLsbD (outputs reg pins : Nibble) (i : Nat) :
    (mixBits outputs reg pins).getLsbD i =
      if outputs.getLsbD i then reg.getLsbD i else pins.getLsbD i := by
  rw [mixBits, BitVec.getLsbD_or, BitVec.getLsbD_and, BitVec.getLsbD_and, BitVec.getLsbD_not]
  by_cases hi : i < 4
  · cases outputs.getLsbD i <;> simp only [hi, decide_true, Bool.and_true, Bool.and_false,
      Bool.true_and, Bool.false_and, Bool.not_true, Bool.not_false, Bool.or_false, Bool.false_or,
      Bool.false_eq_true, if_true, if_false]
  · simp [BitVec.getLsbD_of_ge _ i (Nat.le_of_not_lt hi)]

/-- R6: the five combinations of the options P2 and P4. -/
theorem portOutputs_of_mem {dir : PortDir} {p2 p4 : Nibble}
    (h : (dir, p2, p4) ∈ ([(.p2fp4f, 0xF, 0xF), (.p2fp43, 0xF, 0x3), (.p20p4f, 0x0, 0xF),
      (.p20p43, 0x0, 0x3), (.p20p40, 0x0, 0x0)] : List (PortDir × Nibble × Nibble))) :
    p2 = p2Outputs dir ∧ p4 = p4Outputs dir := by
  cases dir <;> simpa [p2Outputs, p4Outputs] using h

/-- R38: port 0 is an output under STD1 and while D = 1. -/
theorem State.port0Output_iff (s : State) :
    s.port0Output = true ↔ s.cfg.std = .std1 ∨ s.dFlag = true := by
  cases h : s.cfg.std <;> simp [State.port0Output, h]

theorem State.port0Output_eq_false_iff (s : State) :
    s.port0Output = false ↔ s.cfg.std = .stdD ∧ s.dFlag = false := by
  cases h : s.cfg.std <;> simp [State.port0Output, h]

end Sys2Proof.Machine

namespace Sys2Proof

open Machine

/-- Settles O38: the bit of the image is the line, and the line is its product. -/
theorem decodeMatrixIsProductOfLiterals : Obligations.DecodeMatrixIsProductOfLiterals := by
  intro m d i b hb
  rw [decodeImage_getLsbD m d hb]
  exact ⟨decodeLine_iff b d, fun h0 => h0 ▸ decodeLine_zero d⟩

/-- Settles O39: a pin shows its register bit where the direction rules of ports 0, 2 and 4 make it an
output; the other ports have no input. -/
theorem outputPinsShowRegisters : Obligations.OutputPinsShowRegisters := by
  intro s
  refine ⟨fun _ => rfl, fun _ => rfl, fun _ => rfl, ?out, ?inp, ?mixed⟩
  case out =>
    intro h i
    exact if_pos ((State.port0Output_iff s).mpr h)
  case inp =>
    intro hstd hd i
    have hin := (State.port0Output_eq_false_iff s).mpr ⟨hstd, hd⟩
    simp only [State.drivenLevel, hin, Bool.false_eq_true, if_false]
  case mixed =>
    intro p2 p4 h
    obtain ⟨rfl, rfl⟩ := portOutputs_of_mem h
    exact ⟨fun _ => rfl, fun _ => rfl⟩

end Sys2Proof
end

section
/-! PROOFS. The shapes that the meanings share (spec/40_data_transfer.md, 41_operation.md), each as one record
update: a read of data memory, a load of AC with the flags it sets, a write to data memory with the flags
it sets, and a write to a port register. -/

namespace Sys2Proof.Machine

open Safety

/-! ### Which shape an instruction has -/

section Shape

variable (s : State)

theorem exec_sam_eq : exec .sam s = s.memWrite s.ea s.ac := rfl

theorem exec_ssm_eq : exec .ssm s = s.memWrite s.ea s.st := rfl

theorem exec_ada_eq : exec .ada s = accArith (fun m => addCarry m s.ac false) s := rfl

theorem exec_adm_eq : exec .adm s = memArith (fun m => addCarry m s.ac false) s := rfl

theorem exec_aca_eq : exec .aca s = accArith (fun m => addCarry m s.ac s.cFlag) s := rfl

theorem exec_acm_eq : exec .acm s = memArith (fun m => addCarry m s.ac s.cFlag) s := rfl

theorem exec_sua_eq : exec .sua s = accArith (fun m => subBorrow m s.ac) s := rfl

theorem exec_sum_eq : exec .sum s = memArith (fun m => subBorrow m s.ac) s := rfl

theorem exec_ora_eq : exec .ora s = accLogic (fun m => m ||| s.ac) s := rfl

theorem exec_orm_eq : exec .orm s = memLogic (fun m => m ||| s.ac) s := rfl

theorem exec_eoa_eq : exec .eoa s = accLogic (fun m => m ^^^ s.ac) s := rfl

theorem exec_eom_eq : exec .eom s = memLogic (fun m => m ^^^ s.ac) s := rfl

theorem exec_cmm_eq : exec .cmm s = (s.setZ (isZero (~~~s.ac))).memWrite s.ea (~~~s.ac) := rfl

theorem exec_ica_eq : exec .ica s = accArith (fun m => addCarry m 1 false) s := rfl

theorem exec_icm_eq : exec .icm s = memArith (fun m => addCarry m 1 false) s := rfl

theorem exec_tsm_eq : exec .tsm s = memLogic (fun m => m) s := rfl

end Shape

/-! ### Reads of data memory -/

/-- R63: a read gives a word and changes the count of free values at most. -/
theorem State.exists_memRead (s : State) :
    ∃ m n, s.memRead s.ea = (m, { s with draws := n }) ∧ Reads s m { s with draws := n } := by
  by_cases hp : ramPopulated s.cfg s.ea = true
  · exact ⟨_, s.draws, s.memRead_populated hp, fun _ => ⟨rfl, rfl⟩, fun h => by simp [hp] at h⟩
  · have hp' : ramPopulated s.cfg s.ea = false := by simpa using hp
    exact ⟨_, s.draws + 1, s.memRead_unpopulated hp', fun h => absurd h hp, fun _ => rfl⟩

/-! ### Loads of AC -/

theorem State.toAcTest_eq (s : State) (v : Nibble) :
    s.toAcTest v =
      { s with ac := v, st := flags (v == 0) s.cFlag s.dFlag s.hFlag, eyr := false } := by
  rw [State.toAcTest, State.setZ_eq]
  rfl

/-- R132: C is unchanged. -/
theorem State.logicToAc_eq (s : State) (v : Nibble) :
    s.logicToAc v =
      { s with ac := v, st := flags (v == 0) s.cFlag s.dFlag s.hFlag, eyr := false } :=
  s.toAcTest_eq v

theorem State.arithToAc_eq (s : State) (r : Nibble × Bool) :
    s.arithToAc r =
      { s with ac := r.1, st := flags (isZero r.1) r.2 s.dFlag s.hFlag, eyr := false } := by
  rw [State.arithToAc, State.setZC_eq]
  rfl

section OfRead

variable {s u : State} {m : Nibble} (h : s.memRead s.ea = (m, u))
include h

theorem execLam_of_read : execLam s = .next (u.toAc m) := by
  rw [execLam, h]

theorem execLtm_of_read : execLtm s = .next (u.toAcTest m) := by
  rw [execLtm, h]

theorem execLsm_of_read : execLsm s = .next ((u.writeStatus m).setEyr false) := by
  rw [execLsm, h]

theorem accArith_of_read (f : Nibble → Nibble × Bool) : accArith f s = .next (u.arithToAc (f m)) := by
  rw [accArith, h]

theorem accLogic_of_read (f : Nibble → Nibble) : accLogic f s = .next (u.logicToAc (f m)) := by
  rw [accLogic, h]

end OfRead

/-! ### Writes to data memory -/

section Populated

variable {s : State} (hp : ramPopulated s.cfg s.ea = true)
include hp

theorem memArith_populated (f : Nibble → Nibble × Bool) :
    memArith f s = .next { s with
      ram := Memory.write s.ram s.ea (f (Memory.read s.ram s.ea)).1
      st := flags (isZero (f (Memory.read s.ram s.ea)).1) (f (Memory.read s.ram s.ea)).2 s.dFlag
        s.hFlag } := by
  rw [memArith, State.memRead_populated hp, State.setZC_eq]
  exact State.memWrite_populated _ hp

theorem memLogic_populated (f : Nibble → Nibble) :
    memLogic f s = .next { s with
      ram := Memory.write s.ram s.ea (f (Memory.read s.ram s.ea))
      st := flags (f (Memory.read s.ram s.ea) == 0) s.cFlag s.dFlag s.hFlag } := by
  rw [memLogic, State.memRead_populated hp, State.setZ_eq]
  exact State.memWrite_populated _ hp

theorem exec_cmm_populated :
    exec .cmm s = .next { s with
      ram := Memory.write s.ram s.ea (~~~s.ac)
      st := flags (~~~s.ac == 0) s.cFlag s.dFlag s.hFlag } := by
  rw [exec_cmm_eq, State.setZ_eq]
  exact State.memWrite_populated _ hp

end Populated

section Unpopulated

variable {s : State} (hp : ramPopulated s.cfg s.ea = false)
include hp

theorem memArith_unpopulated (f : Nibble → Nibble × Bool) :
    memArith f s = .fault (.ramWriteUnpopulated s.ea) := by
  rw [memArith, State.memRead_unpopulated hp]
  exact State.memWrite_unpopulated _ hp

theorem memLogic_unpopulated (f : Nibble → Nibble) :
    memLogic f s = .fault (.ramWriteUnpopulated s.ea) := by
  rw [memLogic, State.memRead_unpopulated hp]
  exact State.memWrite_unpopulated _ hp

end Unpopulated

/-! ### Ports -/

theorem execLar_of_portRead {s u : State} {r : BitVec 3} {v : Nibble} (h : s.portRead r = .ok (v, u)) :
    execLar r s = .next (u.toAc v) := by
  rw [execLar, h]
  rfl

theorem execLtr_of_portRead {s u : State} {r : BitVec 3} {v : Nibble} (h : s.portRead r = .ok (v, u)) :
    execLtr r s = .next (u.toAcTest v) := by
  rw [execLtr, h]
  rfl

theorem State.portWrite_of_ok {s : State} {r : BitVec 3} {v : Nibble} {p : PortRegs}
    (h : portWriteRegs s.cfg s.ports r v = .ok p) :
    s.portWrite r v = .next { s with ports := p, eyr := false } := by
  rw [State.portWrite, h]
  rfl

theorem State.portWrite_of_error {s : State} {r : BitVec 3} {v : Nibble} {f : Fault}
    (h : portWriteRegs s.cfg s.ports r v = .error f) : s.portWrite r v = .fault f := by
  rw [State.portWrite, h]

/-- R87, decision D9: under PO60 there is no Register 7. -/
theorem portWriteRegs_seven_po60 {cfg : Cfg} {pla : PlaTable} (h : cfg.po6 = .po60 pla) (p : PortRegs)
    (v : Nibble) : portWriteRegs cfg p 7 v = .error (.undefinedRegister 7) := by
  simp [portWriteRegs, h]

/-! ### Status -/

/-- R5: the types whose H flag controls the hold. -/
theorem holdByHFlag_iff (typ : Typ) : holdByHFlag typ = true ↔ typ ∈ [.typ001, .typ002, .typ003] := by
  cases typ <;> simp [holdByHFlag]

/-- R210: a write to the status register discards a waiting request where H is then 1 under HOLDH. -/
theorem State.writeStatus_setEyr_eq (s : State) (v : Nibble) :
    (s.writeStatus v).setEyr false = { s with
      st := v
      il := if s.cfg.typ ∈ [.typ001, .typ002, .typ003] ∧ v.getLsbD 0 = true then false else s.il
      eyr := false } := by
  simp only [State.writeStatus_eq, State.setEyr, Bool.and_eq_true, holdByHFlag_iff]

end Sys2Proof.Machine
end

section
/-! PROOFS. Data transfer through ports and data memory (spec/40_data_transfer.md R101 to R105, R112 to R114,
R118, R119), and the stops at registers and addresses that do not exist. -/

-- As in the section of the flags: no `variable` here, and the proofs stay in the main thread.
set_option deprecated.oldSectionVars true

namespace Sys2Proof.Machine

open Safety

/-- R223: the counter buffer from the bits of the divider that its three outputs are. -/
theorem State.counterBuffer_of_mem {s : State} {c1 c2 c3 : Nat}
    (h : (s.cfg.typ, c1, c2, c3) ∈ [(Typ.typ001, 11, 12, 13), (.typ002, 13, 14, 15), (.typ003, 13, 14, 15),
      (.typ004, 9, 12, 15), (.typ005, 12, 13, 14), (.typ006, 9, 12, 15)]) :
    s.counterBuffer =
      flags (s.div.getLsbD c3) (s.div.getLsbD c2) (s.div.getLsbD c1) s.pins.pi60 := by
  have joined (z c d h : Bool) :
      BitVec.ofBool z ++ BitVec.ofBool c ++ BitVec.ofBool d ++ BitVec.ofBool h = flags z c d h := by
    revert z c d h
    decide
  refine (joined _ _ _ _).trans ?_
  cases hty : s.cfg.typ <;> simp only [hty, List.mem_cons, Prod.mk.injEq, reduceCtorEq, false_and,
    List.not_mem_nil, or_false, false_or, true_and] at h
  all_goals
    obtain ⟨rfl, rfl, rfl⟩ := h
    simp [State.c3, hty, stageLevel, c1Stage, c2Stage, c3Stage, stageBit]

/-- R101, R102: what LAR and LTR do with a value that was read without drawing one. -/
theorem exec_lar_ltr_of_portRead {s : State} {r : BitVec 3} {v : Nibble}
    (h : s.portRead r = .ok (v, s)) :
    exec (.lar r) s = .next { s with ac := v, eyr := false } ∧
      exec (.ltr r) s = .next { s with
        ac := v, st := flags (v == 0) s.cFlag s.dFlag s.hFlag, eyr := false } :=
  ⟨execLar_of_portRead h, (execLtr_of_portRead h).trans (congrArg _ (s.toAcTest_eq v))⟩

/-- R47: under PO61 a write fills one half of Register 6, because the content of the PLA is `d ∘ d`. -/
theorem reg6_low_write (reg : Byte) (d : Nibble) :
    (reg.extractLsb' 4 4 ++ (plaWord .po61 d).extractLsb' 0 4 : Byte).toNat =
      reg.toNat / 16 * 16 + d.toNat := by
  rw [nibble_append_toNat, highNibble_toNat, BitVec.extractLsb'_toNat, plaWord, nibble_append_toNat]
  omega

theorem reg6_high_write (reg : Byte) (d : Nibble) :
    ((plaWord .po61 d).extractLsb' 4 4 ++ reg.extractLsb' 0 4 : Byte).toNat =
      d.toNat * 16 + reg.toNat % 16 := by
  rw [nibble_append_toNat, highNibble_toNat, BitVec.extractLsb'_toNat, plaWord, nibble_append_toNat]
  omega

end Sys2Proof.Machine

namespace Sys2Proof

open Machine Safety

/-- Settles O40: each number reads its port, and the two loads do with the value what their shape says;
only port 0 as an output draws a free value. -/
theorem loadFromPort : Obligations.LoadFromPort := by
  intro s
  refine ⟨?port0, ?port0Out, exec_lar_ltr_of_portRead rfl, ?mixed, exec_lar_ltr_of_portRead rfl, ?buffer⟩
  case port0 =>
    intro h
    have hin : s.port0Output = false := (State.port0Output_eq_false_iff s).mpr h
    exact exec_lar_ltr_of_portRead (by simp [State.portRead, hin])
  case port0Out =>
    intro h
    have hout : s.port0Output = true := (State.port0Output_iff s).mpr h
    have hread : s.portRead 0 = .ok (Config.port0OutputRead s.draws, s.countDraw) := by
      simp [State.portRead, hout]
    exact ⟨_, execLar_of_portRead hread,
      (execLtr_of_portRead hread).trans (congrArg _ (s.countDraw.toAcTest_eq _))⟩
  case mixed =>
    intro p2 p4 h
    obtain ⟨rfl, rfl⟩ := portOutputs_of_mem h
    exact ⟨⟨_, exec_lar_ltr_of_portRead rfl, mixBits_getLsbD _ _ _⟩,
      ⟨_, exec_lar_ltr_of_portRead rfl, mixBits_getLsbD _ _ _⟩⟩
  case buffer =>
    intro c1 c2 c3 h
    exact exec_lar_ltr_of_portRead (congrArg (fun v => Except.ok (v, s)) (State.counterBuffer_of_mem h))

/-- Settles O41: neither the read nor the write of a port has an arm for these numbers. -/
theorem undefinedRegisterStops : Obligations.UndefinedRegisterStops := by
  intro s
  refine ⟨rfl, rfl, rfl, rfl, rfl, rfl, fun pla h => ?_⟩
  have hseven (v : Nibble) := State.portWrite_of_error (portWriteRegs_seven_po60 h s.ports v)
  exact ⟨hseven s.ac, hseven s.yr, hseven 0⟩

/-- Settles O42: both loads do with the word that was read what their shape says. -/
theorem loadFromMemory : Obligations.LoadFromMemory := by
  intro s
  obtain ⟨m, n, hread, hreads⟩ := s.exists_memRead
  exact ⟨m, _, hreads, execLam_of_read hread,
    (execLtm_of_read hread).trans (congrArg _ (State.toAcTest_eq _ m))⟩

/-- Settles O43: LSM writes the whole status register, which is where a hold begins. -/
theorem loadStatusFromMemory : Obligations.LoadStatusFromMemory := by
  intro s
  obtain ⟨m, n, hread, hreads⟩ := s.exists_memRead
  exact ⟨m, _, hreads, (execLsm_of_read hread).trans (congrArg _ (State.writeStatus_setEyr_eq _ m))⟩

/-- Settles O45: each store is one write to memory; the complement is 15 minus AC, and 0 where AC is 15. -/
theorem storeToMemory : Obligations.StoreToMemory := by
  intro s hp
  refine ⟨⟨_, State.memWrite_populated s.ac hp, rfl, stores_write s s.ea s.ac s.st⟩,
    ⟨_, State.memWrite_populated s.st hp, rfl, ?ssm⟩, ?cmm⟩
  case ssm =>
    rw [s.flags_eq_st]
    exact stores_write s s.ea s.st s.st
  case cmm =>
    have hzero : (~~~s.ac == 0) = (s.ac == 15) := by
      generalize s.ac = a
      revert a
      decide
    have hcompl : ~~~s.ac = BitVec.ofNat 4 (15 - s.ac.toNat) := by
      generalize s.ac = a
      revert a
      decide
    refine ⟨_, exec_cmm_populated hp, by rw [hzero], ?_⟩
    rw [← hcompl]
    exact stores_write s s.ea _ _

/-- Settles O46: SAM, SSM and CMM write at once, the others after a read that stops nothing. -/
theorem storeOutsideDataMemoryStops : Obligations.StoreOutsideDataMemoryStops := by
  intro s hp i hi
  have arith := memArith_unpopulated hp
  have logic := memLogic_unpopulated hp
  simp only [List.mem_cons, List.not_mem_nil, or_false] at hi
  rcases hi with rfl | rfl | rfl | rfl | rfl | rfl | rfl | rfl | rfl | rfl
  · exact State.memWrite_unpopulated _ hp
  · exact State.memWrite_unpopulated _ hp
  · rw [exec_adm_eq, arith]
  · rw [exec_acm_eq, arith]
  · rw [exec_sum_eq, arith]
  · rw [exec_orm_eq, logic]
  · rw [exec_eom_eq, logic]
  · exact State.memWrite_unpopulated _ hp
  · rw [exec_icm_eq, arith]
  · rw [exec_tsm_eq, logic]

/-- Settles O47: the three instructions are one port write of their value, and each register number has
its arm in `portWriteRegs`. -/
theorem storeToPort : Obligations.StoreToPort := by
  intro s r i v hi
  have hexec : exec i s = s.portWrite r v := by
    rcases hi with ⟨rfl, rfl⟩ | ⟨rfl, rfl⟩ | ⟨rfl, rfl⟩ <;> rfl
  rw [hexec]
  refine ⟨?_, ?_, ?_, ?_, ?_, ?po60, ?low, ?high⟩
  case po60 =>
    rintro rfl pla hpla
    exact ⟨plaTableWord pla v, getElem?_plaTableWord pla v,
      State.portWrite_of_ok (by simp [portWriteRegs, hpla, plaWord])⟩
  case low =>
    rintro rfl h61
    exact ⟨_, reg6_low_write s.ports.reg6 v, State.portWrite_of_ok (by simp [portWriteRegs, h61])⟩
  case high =>
    rintro rfl h61
    exact ⟨_, reg6_high_write s.ports.reg6 v, State.portWrite_of_ok (by simp [portWriteRegs, h61])⟩
  all_goals
    rintro rfl
    exact State.portWrite_of_ok rfl

end Sys2Proof
end

section
/-! PROOFS. The operation instructions (spec/41_operation.md R130 to R150): the ALU as arithmetic on numbers and
on bits, then each instruction as its shape with that arithmetic. -/

namespace Sys2Proof.Machine

open Safety

/-! ### The ALU (R130 to R132) -/

theorem isZero_ofNat_mod (n : Nat) : isZero (BitVec.ofNat 4 (n % 16)) = (n % 16 == 0) := by
  rw [Bool.eq_iff_iff]
  simp only [isZero, beq_iff_eq, ← BitVec.toNat_inj, BitVec.toNat_ofNat]
  omega

section Addition

variable {a b : Nibble} {cin : Bool} {n : Nat} (hn : a.toNat + b.toNat + cin.toNat = n)
include hn

/-- R130: the sum modulo 16, and whether it reached 16. -/
theorem addCarry_eq : addCarry a b cin = (BitVec.ofNat 4 (n % 16), decide (16 ≤ n)) := by
  subst hn
  rw [addCarry, Prod.mk.injEq]
  refine ⟨BitVec.eq_of_toNat_eq ?_, rfl⟩
  simp only [BitVec.toNat_ofNat]
  omega

theorem State.arithToAc_addCarry (s : State) :
    s.arithToAc (addCarry a b cin) = { s with
      ac := BitVec.ofNat 4 (n % 16)
      st := flags (n % 16 == 0) (decide (16 ≤ n)) s.dFlag s.hFlag
      eyr := false } := by
  rw [State.arithToAc_eq, addCarry_eq hn, isZero_ofNat_mod]

/-- R130: an addition into AC, with a summand of the word that was read. -/
theorem accArith_addCarry {s u : State} (hread : s.memRead s.ea = (a, u)) :
    accArith (fun m => addCarry m b cin) s = .next { u with
      ac := BitVec.ofNat 4 (n % 16)
      st := flags (n % 16 == 0) (decide (16 ≤ n)) u.dFlag u.hFlag
      eyr := false } := by
  rw [accArith_of_read hread, State.arithToAc_addCarry hn]

end Addition

/-- R130: an addition into memory, with the summands of the word that is there. -/
theorem memArith_addCarry {s : State} (hp : ramPopulated s.cfg s.ea = true) {b : Nibble} {cin : Bool}
    {n : Nat} (hn : (Memory.read s.ram s.ea).toNat + b.toNat + cin.toNat = n) :
    ∃ t, memArith (fun m => addCarry m b cin) s = .next t ∧
      Stores s t s.ea (BitVec.ofNat 4 (n % 16)) ∧
      t = { s with ram := t.ram, st := flags (n % 16 == 0) (decide (16 ≤ n)) s.dFlag s.hFlag } := by
  refine ⟨_, memArith_populated hp _, ?_, ?_⟩
  · rw [addCarry_eq hn]
    exact stores_write s s.ea _ _
  · rw [addCarry_eq hn, isZero_ofNat_mod]

/-- R131: the difference modulo 16, and whether there is no borrow. -/
theorem subBorrow_eq (m a : Nibble) :
    subBorrow m a = (BitVec.ofNat 4 ((m.toNat + 16 - a.toNat) % 16), decide (a.toNat ≤ m.toNat)) := by
  rw [subBorrow, Prod.mk.injEq]
  refine ⟨BitVec.eq_of_toNat_eq ?_, rfl⟩
  simp only [BitVec.toNat_sub, BitVec.toNat_ofNat]
  omega

theorem isZero_subBorrow (m a : Nibble) : isZero (subBorrow m a).1 = (m == a) := by
  rw [Bool.eq_iff_iff]
  simp only [isZero, subBorrow, beq_iff_eq]
  exact sub_eq_zero

theorem carry_toNat (c : Bool) : c.toNat = if c then 1 else 0 := by
  cases c <;> rfl

theorem nibble_add_one (v : Nibble) : v + 1 = BitVec.ofNat 4 ((v.toNat + 1) % 16) := by
  bv_omega

/-- R132: a logical operation into memory, with the bits of its result. -/
theorem memLogic_bits {s : State} (hp : ramPopulated s.cfg s.ea = true) (f : Nibble → Nibble) {bit : Nat → Bool}
    (hbit : ∀ k, k < 4 → (f (Memory.read s.ram s.ea)).getLsbD k = bit k) :
    ∃ (v : Nibble) (t : State), (∀ k, k < 4 → v.getLsbD k = bit k) ∧ memLogic f s = .next t ∧
      Stores s t s.ea v ∧ t = { s with ram := t.ram, st := flags (v == 0) s.cFlag s.dFlag s.hFlag } :=
  ⟨_, _, hbit, memLogic_populated hp f, stores_write s s.ea _ _, rfl⟩

end Sys2Proof.Machine

namespace Sys2Proof

open Machine Safety

/-- Settles O48: the four instructions are one addition into AC, with summands of their own. -/
theorem additionToAccumulator : Obligations.AdditionToAccumulator := by
  intro s n
  obtain ⟨m, d, hread, hreads⟩ := s.exists_memRead
  refine ⟨m, _, hreads, ?adi, ?ada, ?aca, ?ica⟩
  case adi => exact congrArg Host.Outcome.next (s.arithToAc_addCarry rfl)
  case ada => exact accArith_addCarry rfl hread
  case aca => exact accArith_addCarry (by rw [carry_toNat]) hread
  case ica => exact accArith_addCarry rfl hread

/-- Settles O49: the three instructions are one addition into memory, with summands of their own. -/
theorem additionToMemory : Obligations.AdditionToMemory := by
  intro s hp
  exact ⟨memArith_addCarry hp rfl, memArith_addCarry hp (by rw [carry_toNat]), memArith_addCarry hp rfl⟩

/-- Settles O50: SUA is the subtraction into AC. -/
theorem subtractionToAccumulator : Obligations.SubtractionToAccumulator := by
  intro s
  obtain ⟨m, d, hread, hreads⟩ := s.exists_memRead
  refine ⟨m, _, hreads, ?_⟩
  rw [exec_sua_eq, accArith_of_read hread, State.arithToAc_eq, isZero_subBorrow, subBorrow_eq]
  rfl

/-- Settles O51: SUM is the subtraction into memory. -/
theorem subtractionToMemory : Obligations.SubtractionToMemory := by
  intro s hp
  refine ⟨_, memArith_populated hp fun m => subBorrow m s.ac, ?_, ?_⟩
  · rw [subBorrow_eq]
    exact stores_write s s.ea _ _
  · rw [isZero_subBorrow, subBorrow_eq]

/-- Settles O52: each logical operation acts bit by bit; CMA does so on AC without a read. -/
theorem logicToAccumulator : Obligations.LogicToAccumulator := by
  intro s
  obtain ⟨m, d, hread, hreads⟩ := s.exists_memRead
  refine ⟨m, _, hreads, ⟨m ||| s.ac, ?_, ?ora⟩, ⟨m ^^^ s.ac, ?_, ?eoa⟩, ⟨~~~s.ac, ?_, ?cma⟩⟩
  case ora =>
    rw [exec_ora_eq, accLogic_of_read hread]
    exact congrArg Host.Outcome.next (State.logicToAc_eq _ _)
  case eoa =>
    rw [exec_eoa_eq, accLogic_of_read hread]
    exact congrArg Host.Outcome.next (State.logicToAc_eq _ _)
  case cma => exact congrArg Host.Outcome.next (s.logicToAc_eq _)
  · exact fun k _ => BitVec.getLsbD_or
  · exact fun k _ => BitVec.getLsbD_xor
  · intro k hk
    rw [BitVec.getLsbD_not, decide_eq_true hk, Bool.true_and]

/-- Settles O53: the same operations into memory; TSM writes back the word it read. -/
theorem logicToMemory : Obligations.LogicToMemory := by
  intro s hp
  exact ⟨memLogic_bits hp (fun m => m ||| s.ac) fun _ _ => BitVec.getLsbD_or,
    memLogic_bits hp (fun m => m ^^^ s.ac) fun _ _ => BitVec.getLsbD_xor, memLogic_bits hp (fun m => m) fun _ _ => rfl⟩

/-- Settles O54: each increment is one addition of 1 in its register's four bits. -/
theorem pointerIncrement : Obligations.PointerIncrement := by
  intro s
  rw [← nibble_add_one, ← nibble_add_one]
  exact ⟨congrArg Host.Outcome.next (s.setEyr_setLr _ false),
    congrArg Host.Outcome.next (s.setEyr_setHr _ false)⟩

end Sys2Proof
end

section
/-! PROOFS. The bit manipulation instructions (spec/42_bit_manipulation.md R160 to R169): the bits of a word with
one bit set, cleared, inverted or tested. -/

namespace Sys2Proof.Machine

open Safety

theorem setBit_getLsbD (v : Nibble) (g : BitVec 2) :
    ∀ k, k < 4 → (setBit v g).getLsbD k = if k = g.toNat then true else v.getLsbD k := by
  revert v g
  decide

theorem clearBit_getLsbD (v : Nibble) (g : BitVec 2) :
    ∀ k, k < 4 → (clearBit v g).getLsbD k = if k = g.toNat then false else v.getLsbD k := by
  revert v g
  decide

theorem invertBit_getLsbD (v : Nibble) (g : BitVec 2) :
    ∀ k, k < 4 → (invertBit v g).getLsbD k = if k = g.toNat then !v.getLsbD g.toNat else v.getLsbD k := by
  revert v g
  decide

theorem isZero_maskBit (v : Nibble) (g : BitVec 2) : isZero (maskBit v g) = !v.getLsbD g.toNat := by
  revert v g
  decide

end Sys2Proof.Machine

namespace Sys2Proof

open Machine Safety

/-- Settles O55: the three instructions load AC with itself but for one bit. -/
theorem accumulatorBits : Obligations.AccumulatorBits := by
  intro s g
  exact ⟨⟨_, setBit_getLsbD s.ac g, rfl⟩, ⟨_, clearBit_getLsbD s.ac g, rfl⟩, ⟨_, invertBit_getLsbD s.ac g, rfl⟩⟩

/-- Settles O56: the mask leaves the one bit, so its zero test is that bit's complement. -/
theorem bitTests : Obligations.BitTests := by
  intro s g
  have tested (v : Nibble) : (s.setZ (isZero (maskBit v g))).setEyr false =
      { s with st := flags (!v.getLsbD g.toNat) s.cFlag s.dFlag s.hFlag, eyr := false } := by
    rw [State.setZ_eq, isZero_maskBit]
    rfl
  exact ⟨congrArg Host.Outcome.next (tested s.ac), congrArg Host.Outcome.next (tested s.st)⟩

/-- Settles O57: the three instructions write the status register back but for one bit, and each such
write may begin a hold. -/
theorem statusBits : Obligations.StatusBits := by
  intro s g
  have written (v : Nibble) : (.next ((s.writeStatus v).setEyr false) : Result) = _ :=
    congrArg Host.Outcome.next (s.writeStatus_setEyr_eq v)
  exact ⟨⟨_, setBit_getLsbD s.st g, written _⟩, ⟨_, clearBit_getLsbD s.st g, written _⟩,
    ⟨_, invertBit_getLsbD s.st g, written _⟩⟩

end Sys2Proof
end

section
/-! PROOFS. CAL, RTN and JAC (spec/44_subroutine_misc.md R186 to R188), and the return from an interrupt
(spec/60_exceptions.md R205). -/

namespace Sys2Proof.Machine

variable {s : State}

/-- R187: RTN reads the stack unless the model was told to stop on an empty one. -/
theorem exec_rtn_of_return (h : s.fstk = true ∨ s.cfg.rtnEmpty = .reload) :
    exec .rtn s = .next { s with pc := s.stk, fstk := false, eyr := false } := by
  refine if_neg ?_
  rcases h with h | h <;> simp [h]

/-- R187, decision D11: the stricter parameter stops RTN on an empty stack. -/
theorem exec_rtn_of_empty (hF : s.fstk = false) (hE : s.cfg.rtnEmpty = .fault) :
    exec .rtn s = .fault .stackEmpty :=
  if_pos (by simp [hF, hE])

/-- R188: the block of the address, with AC in the place of its low nibble. -/
theorem jacTarget (p : ProgAddr) (v : Nibble) :
    p.extractLsb' 4 8 ++ v = BitVec.ofNat 12 (p.toNat / 16 * 16 + v.toNat) := by
  apply BitVec.eq_of_toNat_eq
  have hv := v.isLt
  have hp := p.isLt
  calc (p.extractLsb' 4 8 ++ v).toNat = (p.extractLsb' 4 8).toNat <<< 4 ||| v.toNat :=
        BitVec.toNat_append _ v
    _ = (p.extractLsb' 4 8).toNat * 16 + v.toNat := by
        rw [← Nat.shiftLeft_add_eq_or_of_lt hv, Nat.shiftLeft_eq]
    _ = (BitVec.ofNat 12 (p.toNat / 16 * 16 + v.toNat)).toNat := by
        simp only [BitVec.extractLsb'_toNat, BitVec.toNat_ofNat, Nat.shiftRight_eq_div_pow]
        omega

end Sys2Proof.Machine

namespace Sys2Proof

open Machine

/-- Settles O59: CAL never looks at FSTK, and RTN's one condition is that of its two rules. -/
theorem callAndReturn : Obligations.CallAndReturn := by
  intro s ap
  exact ⟨rfl, exec_rtn_of_return, exec_rtn_of_empty⟩

/-- Settles O60: PC is past the one byte of JAC, so PC + 1 is the address of JAC plus 2. -/
theorem jumpByAccumulator : Obligations.JumpByAccumulator := by
  intro s a hpc
  have hnext : (s.pc + 1).toNat = (a.toNat + 2) % 4096 := by
    rw [hpc]
    bv_omega
  rw [← hnext, ← jacTarget]
  rfl

/-- Settles O23: the acceptance set FSTK, so RTN finds the stack full. -/
theorem returnFromInterruptResumes : Obligations.ReturnFromInterruptResumes := by
  intro s
  exact exec_rtn_of_return (s := s.acceptInterrupt) (.inl rfl)

end Sys2Proof
end

section
/-! PROOFS. The terms in which the proofs below speak of all instructions at once (spec/10_state.md R20 to R36): a
table of what each instruction writes, and the states that each entry of the table allows. `exec_after`
ties the table to `exec`, `names_writesOf` to the instructions. -/

namespace Sys2Proof.Machine

open Safety

/-- What an instruction writes, besides EYR. -/
inductive Writes where
  | acc
  | accZ
  | accZC
  | zero
  | status
  | statusBit (g : BitVec 2)
  | lReg
  | hReg
  | yReg
  | port
  | mem
  | memZ
  | memZC
  | jump
  | call
  | ret
  | nothing

/-- R20 to R36, by instruction. -/
def writesOf : Instr → Writes
  | .lar _ | .lam | .lal | .lah | .lai _ | .sba _ | .cba _ | .iba _ => .acc
  | .ltr _ | .ltm | .ora | .eoa | .cma => .accZ
  | .adi _ | .ada | .aca | .sua | .ica => .accZC
  | .tba _ | .tbs _ => .zero
  | .lsm => .status
  | .sbs g | .cbs g | .ibs g => .statusBit g
  | .lli _ | .sal | .icl => .lReg
  | .lhi _ | .sah | .ich => .hReg
  | .lyi _ | .say => .yReg
  | .sar _ | .syr _ | .clr _ => .port
  | .sam | .ssm => .mem
  | .orm | .eom | .cmm | .tsm => .memZ
  | .adm | .acm | .sum | .icm => .memZC
  | .jmp _ | .bcs _ | .bcc _ | .jac => .jump
  | .cal _ => .call
  | .rtn => .ret
  | .nop => .nothing

/-- The instructions that an entry of the table stands for. -/
def Writes.Names (i : Instr) : Writes → Prop
  | .acc =>
    (∃ r, i = .lar r) ∨ (∃ n, i = .lai n) ∨ (∃ g, i = .sba g ∨ i = .cba g ∨ i = .iba g) ∨
      i ∈ [.lam, .lal, .lah]
  | .accZ => (∃ r, i = .ltr r) ∨ i ∈ [.ltm, .ora, .eoa, .cma]
  | .accZC => (∃ n, i = .adi n) ∨ i ∈ [.ada, .aca, .sua, .ica]
  | .zero => (∃ g, i = .tba g) ∨ ∃ g, i = .tbs g
  | .status => i = .lsm
  | .statusBit g => i = .sbs g ∨ i = .cbs g ∨ i = .ibs g
  | .lReg => (∃ n, i = .lli n) ∨ i = .sal ∨ i = .icl
  | .hReg => (∃ n, i = .lhi n) ∨ i = .sah ∨ i = .ich
  | .yReg => (∃ n, i = .lyi n) ∨ i = .say
  | .port => ∃ r, i = .sar r ∨ i = .syr r ∨ i = .clr r
  | .mem => i ∈ [.sam, .ssm]
  | .memZ => i ∈ [.orm, .eom, .cmm, .tsm]
  | .memZC => i ∈ [.adm, .acm, .sum, .icm]
  | .jump => (∃ ap, i = .jmp ap ∨ i = .bcs ap ∨ i = .bcc ap) ∨ i = .jac
  | .call => ∃ ap, i = .cal ap
  | .ret => i = .rtn
  | .nothing => i = .nop

/-- R210: the latch after `v` was written to the status register. -/
def State.ilAfterStatus (s : State) (v : Nibble) : Bool :=
  if holdByHFlag s.cfg.typ && v.getLsbD 0 then false else s.il

/-- The states that an instruction can leave, by what it writes: the values are open, all else is not. -/
inductive After (s : State) : Writes → State → Prop
  | acc (v n) : After s .acc { s with ac := v, eyr := false, draws := n }
  | accZ (v z n) :
    After s .accZ { s with ac := v, st := flags z s.cFlag s.dFlag s.hFlag, eyr := false, draws := n }
  | accZC (v z c n) :
    After s .accZC { s with ac := v, st := flags z c s.dFlag s.hFlag, eyr := false, draws := n }
  | zero (z) : After s .zero { s with st := flags z s.cFlag s.dFlag s.hFlag, eyr := false }
  | status (v n) :
    After s .status { s with st := v, il := s.ilAfterStatus v, eyr := false, draws := n }
  | statusBit (g v) (hv : ∀ k, k < 4 → k ≠ g.toNat → v.getLsbD k = s.st.getLsbD k) :
    After s (.statusBit g) { s with st := v, il := s.ilAfterStatus v, eyr := false }
  | lReg (v) : After s .lReg { s with lr := v, eyr := false }
  | hReg (v) : After s .hReg { s with hr := v, eyr := false }
  | yReg (v) : After s .yReg { s with yr := v, eyr := true }
  | port (p) : After s .port { s with ports := p, eyr := false }
  | mem (v) (hp : ramPopulated s.cfg s.ea = true) :
    After s .mem { s with ram := Memory.write s.ram s.ea v }
  | memZ (v z) (hp : ramPopulated s.cfg s.ea = true) :
    After s .memZ { s with
      ram := Memory.write s.ram s.ea v, st := flags z s.cFlag s.dFlag s.hFlag }
  | memZC (v z c) (hp : ramPopulated s.cfg s.ea = true) :
    After s .memZC { s with ram := Memory.write s.ram s.ea v, st := flags z c s.dFlag s.hFlag }
  | jump (a) : After s .jump { s with pc := a, eyr := false }
  | call (a) : After s .call { s with stk := s.pc, fstk := true, pc := a, eyr := false }
  | ret : After s .ret { s with pc := s.stk, fstk := false, eyr := false }
  | nothing : After s .nothing { s with eyr := false }

end Sys2Proof.Machine
end

section
/-! PROOFS. What an instruction can change (spec/10_state.md R20 to R36): the table of what each instruction writes
tied to `exec` by `exec_after`, and the rules over all instructions, each read off the table. -/

namespace Sys2Proof.Machine

open Safety

/-! ### The table tied to `exec`, shape by shape -/

section Shapes

variable {s t : State}

theorem after_of_execLar {r : BitVec 3} (h : execLar r s = .next t) : After s .acc t := by
  obtain ⟨v, u, hr, rfl⟩ := withPort_next h
  rcases State.portRead_ok hr with rfl | rfl
  · exact .acc v _
  · exact .acc v _

theorem after_of_execLtr {r : BitVec 3} (h : execLtr r s = .next t) : After s .accZ t := by
  obtain ⟨v, u, hr, rfl⟩ := withPort_next h
  rw [State.toAcTest_eq]
  rcases State.portRead_ok hr with rfl | rfl
  · exact .accZ v _ _
  · exact .accZ v _ _

theorem after_of_execLam (h : execLam s = .next t) : After s .acc t := by
  obtain ⟨m, n, hread, -⟩ := s.exists_memRead
  cases (execLam_of_read hread).symm.trans h
  exact .acc m n

theorem after_of_execLtm (h : execLtm s = .next t) : After s .accZ t := by
  obtain ⟨m, n, hread, -⟩ := s.exists_memRead
  cases (execLtm_of_read hread).symm.trans h
  rw [State.toAcTest_eq]
  exact .accZ m _ n

theorem after_of_execLsm (h : execLsm s = .next t) : After s .status t := by
  obtain ⟨m, n, hread, -⟩ := s.exists_memRead
  cases (execLsm_of_read hread).symm.trans h
  rw [State.writeStatus_eq]
  exact .status m n

theorem after_arithToAc (r : Nibble × Bool) : After s .accZC (s.arithToAc r) := by
  rw [State.arithToAc_eq]
  exact .accZC _ _ _ _

theorem after_logicToAc (v : Nibble) : After s .accZ (s.logicToAc v) := by
  rw [State.logicToAc_eq]
  exact .accZ _ _ _

theorem after_of_accArith {f : Nibble → Nibble × Bool} (h : accArith f s = .next t) :
    After s .accZC t := by
  obtain ⟨m, n, hread, -⟩ := s.exists_memRead
  cases (accArith_of_read hread f).symm.trans h
  rw [State.arithToAc_eq]
  exact .accZC _ _ _ n

theorem after_of_accLogic {f : Nibble → Nibble} (h : accLogic f s = .next t) : After s .accZ t := by
  obtain ⟨m, n, hread, -⟩ := s.exists_memRead
  cases (accLogic_of_read hread f).symm.trans h
  rw [State.logicToAc_eq]
  exact .accZ _ _ n

theorem after_of_memArith {f : Nibble → Nibble × Bool} (h : memArith f s = .next t) :
    After s .memZC t := by
  obtain ⟨hp, rfl⟩ := memArith_next h
  rw [State.setZC_eq]
  exact .memZC _ _ _ hp

theorem after_of_memLogic {f : Nibble → Nibble} (h : memLogic f s = .next t) : After s .memZ t := by
  obtain ⟨hp, rfl⟩ := memLogic_next h
  rw [State.setZ_eq]
  exact .memZ _ _ hp

theorem after_of_memWrite {v : Nibble} (h : s.memWrite s.ea v = .next t) : After s .mem t := by
  obtain ⟨hp, rfl⟩ := State.memWrite_next h
  exact .mem v hp

theorem after_of_execCmm (h : exec .cmm s = .next t) : After s .memZ t := by
  rw [exec_cmm_eq, State.setZ_eq] at h
  obtain ⟨hp, rfl⟩ := State.memWrite_next h
  exact .memZ _ _ hp

theorem after_of_portWrite {r : BitVec 3} {v : Nibble} (h : s.portWrite r v = .next t) :
    After s .port t := by
  obtain ⟨p, -, rfl⟩ := State.portWrite_next h
  exact .port p

theorem after_setZ (z : Bool) : After s .zero ((s.setZ z).setEyr false) := by
  rw [State.setZ_eq]
  exact .zero z

theorem after_writeStatus (g : BitVec 2) (v : Nibble)
    (hv : ∀ k, k < 4 → k ≠ g.toNat → v.getLsbD k = s.st.getLsbD k) :
    After s (.statusBit g) ((s.writeStatus v).setEyr false) := by
  rw [State.writeStatus_eq]
  exact .statusBit g v hv

theorem after_branchIf (c : Bool) (ap : ProgAddr) : After s .jump (s.branchIf c ap) := by
  cases c
  · exact .jump s.pc
  · exact .jump ap

theorem after_of_execRtn (h : execRtn s = .next t) : After s .ret t := by
  rw [execRtn] at h
  split at h
  · cases h
  · cases h
    exact .ret

end Shapes

/-- Everything an instruction can do where it answers a next state. -/
theorem exec_after {i : Instr} {s t : State} (h : exec i s = .next t) : After s (writesOf i) t := by
  cases i
  case lar => exact after_of_execLar h
  case ltr => exact after_of_execLtr h
  case lam => exact after_of_execLam h
  case ltm => exact after_of_execLtm h
  case lsm => exact after_of_execLsm h
  case lal | lah | lai | sba | cba | iba =>
    cases h
    exact .acc _ _
  case ada | aca | sua | ica =>
    simp only [exec_ada_eq, exec_aca_eq, exec_sua_eq, exec_ica_eq] at h
    exact after_of_accArith h
  case adi =>
    cases h
    exact after_arithToAc _
  case ora | eoa =>
    simp only [exec_ora_eq, exec_eoa_eq] at h
    exact after_of_accLogic h
  case cma =>
    cases h
    exact after_logicToAc _
  case adm | acm | sum | icm =>
    simp only [exec_adm_eq, exec_acm_eq, exec_sum_eq, exec_icm_eq] at h
    exact after_of_memArith h
  case orm | eom | tsm =>
    simp only [exec_orm_eq, exec_eom_eq, exec_tsm_eq] at h
    exact after_of_memLogic h
  case cmm => exact after_of_execCmm h
  case sam | ssm => exact after_of_memWrite h
  case sar | syr | clr => exact after_of_portWrite h
  case lli | sal | icl =>
    cases h
    exact .lReg _
  case lhi | sah | ich =>
    cases h
    exact .hReg _
  case lyi | say =>
    cases h
    exact .yReg _
  case tba | tbs =>
    cases h
    exact after_setZ _
  case sbs g =>
    cases h
    exact after_writeStatus g _ fun k hk hne => (setBit_getLsbD s.st g k hk).trans (if_neg hne)
  case cbs g =>
    cases h
    exact after_writeStatus g _ fun k hk hne => (clearBit_getLsbD s.st g k hk).trans (if_neg hne)
  case ibs g =>
    cases h
    exact after_writeStatus g _ fun k hk hne => (invertBit_getLsbD s.st g k hk).trans (if_neg hne)
  case jmp | bcs | bcc =>
    cases h
    exact after_branchIf _ _
  case jac =>
    cases h
    exact .jump _
  case cal =>
    cases h
    exact .call _
  case rtn => exact after_of_execRtn h
  case nop =>
    cases h
    exact .nothing

theorem names_writesOf (i : Instr) : (writesOf i).Names i := by
  cases i
  case lar r => exact .inl ⟨r, rfl⟩
  case lai n => exact .inr (.inl ⟨n, rfl⟩)
  case sba g => exact .inr (.inr (.inl ⟨g, .inl rfl⟩))
  case cba g => exact .inr (.inr (.inl ⟨g, .inr (.inl rfl)⟩))
  case iba g => exact .inr (.inr (.inl ⟨g, .inr (.inr rfl)⟩))
  case lam | lal | lah => exact .inr (.inr (.inr (by simp)))
  case ltr r => exact .inl ⟨r, rfl⟩
  case adi n => exact .inl ⟨n, rfl⟩
  case ltm | ora | eoa | cma | ada | aca | sua | ica => exact .inr (by simp)
  case tba g => exact .inl ⟨g, rfl⟩
  case tbs g => exact .inr ⟨g, rfl⟩
  case lsm | rtn | nop => rfl
  case sbs | sar | syr | clr | jmp | bcs | bcc => simp [writesOf, Writes.Names]
  case cbs | ibs => simp [writesOf, Writes.Names]
  case lli n | lhi n | lyi n => exact .inl ⟨n, rfl⟩
  case sal | sah => exact .inr (.inl rfl)
  case icl | ich => exact .inr (.inr rfl)
  case say | jac => exact .inr rfl
  case cal ap => exact ⟨ap, rfl⟩
  case sam | ssm | orm | eom | cmm | tsm | adm | acm | sum | icm => simp [writesOf, Writes.Names]

/-- An instruction that answers a next state is named by an entry of the table, which says what it did. -/
theorem exists_after {i : Instr} {s t : State} (h : exec i s = .next t) :
    ∃ w : Writes, w.Names i ∧ After s w t :=
  ⟨writesOf i, names_writesOf i, exec_after h⟩

theorem mem_of_subset {l l' : List Instr} {i : Instr} (h : i ∈ l) (hsub : l ⊆ l') : i ∈ l' := hsub h

/-! ### Field by field -/

/-- R20: the entries of the table that write AC. -/
def Writes.writesAc : Writes → Bool
  | .acc | .accZ | .accZC => true
  | .zero | .status | .statusBit _ | .lReg | .hReg | .yReg | .port | .mem | .memZ | .memZC | .jump | .call
  | .ret | .nothing => false

/-- R30: the entries of the table that write PC. -/
def Writes.writesPc : Writes → Bool
  | .jump | .call | .ret => true
  | .acc | .accZ | .accZC | .zero | .status | .statusBit _ | .lReg | .hReg | .yReg | .port | .mem | .memZ
  | .memZC | .nothing => false

/-- R64: the entries of the table that write data memory. -/
def Writes.writesRam : Writes → Bool
  | .mem | .memZ | .memZC => true
  | .acc | .accZ | .accZC | .zero | .status | .statusBit _ | .lReg | .hReg | .yReg | .port | .jump | .call
  | .ret | .nothing => false

/-- The bits of the status register that each entry of the table may change. -/
def Writes.touchesBit (k : Nat) : Writes → Bool
  | .accZ | .zero | .memZ => k == 3
  | .accZC | .memZC => k == 3 || k == 2
  | .status => true
  | .statusBit g => g == BitVec.ofNat 2 k
  | .acc | .lReg | .hReg | .yReg | .port | .mem | .jump | .call | .ret | .nothing => false

/-- R29: what each entry of the table makes of EYR. -/
def Writes.eyrAfter (eyr : Bool) : Writes → Bool
  | .yReg => true
  | .mem | .memZ | .memZC => eyr
  | .acc | .accZ | .accZC | .zero | .status | .statusBit _ | .lReg | .hReg | .port | .jump | .call
  | .ret | .nothing => false

namespace After

theorem flags_z_getLsbD (v : Nibble) (z : Bool) : ∀ k, k < 4 → (k == 3) = false →
    (flags z (v.getLsbD 2) (v.getLsbD 1) (v.getLsbD 0)).getLsbD k = v.getLsbD k := by
  revert v z
  decide

theorem flags_zc_getLsbD (v : Nibble) (z c : Bool) : ∀ k, k < 4 → (k == 3 || k == 2) = false →
    (flags z c (v.getLsbD 1) (v.getLsbD 0)).getLsbD k = v.getLsbD k := by
  revert v z c
  decide

variable {s t : State} {w : Writes} (h : After s w t)
include h

theorem st_bit {k : Nat} (hk : k < 4) (hw : w.touchesBit k = false) :
    t.st.getLsbD k = s.st.getLsbD k := by
  cases h
  case accZ | zero | memZ => exact flags_z_getLsbD s.st _ k hk hw
  case accZC | memZC => exact flags_zc_getLsbD s.st _ _ k hk hw
  case status => cases hw
  case statusBit g v hv =>
    refine hv k hk ?_
    rintro rfl
    simp [Writes.touchesBit] at hw
  all_goals rfl

theorem touchesBit_of_ne {k : Nat} (hk : k < 4) (hne : t.st.getLsbD k ≠ s.st.getLsbD k) :
    w.touchesBit k = true := by
  by_contra hw
  exact hne (h.st_bit hk (by simpa using hw))

theorem eyr_eq : t.eyr = w.eyrAfter s.eyr := by
  cases h <;> rfl

theorem ac_eq_or : w.writesAc = true ∨ t.ac = s.ac := by
  cases h
  case acc | accZ | accZC => exact .inl rfl
  all_goals exact .inr rfl

theorem stk_eq_or : w = .call ∨ t.stk = s.stk := by
  cases h
  case call => exact .inl rfl
  all_goals exact .inr rfl

theorem pc_eq_or : w.writesPc = true ∨ t.pc = s.pc := by
  cases h
  case jump | call | ret => exact .inl rfl
  all_goals exact .inr rfl

theorem fstk_eq_or : w = .call ∧ t.fstk = true ∨ w = .ret ∧ t.fstk = false ∨ t.fstk = s.fstk := by
  cases h
  case call => exact .inl ⟨rfl, rfl⟩
  case ret => exact .inr (.inl ⟨rfl, rfl⟩)
  all_goals exact .inr (.inr rfl)

theorem lr_eq_or : w = .lReg ∨ t.lr = s.lr := by
  cases h
  case lReg => exact .inl rfl
  all_goals exact .inr rfl

theorem hr_eq_or : w = .hReg ∨ t.hr = s.hr := by
  cases h
  case hReg => exact .inl rfl
  all_goals exact .inr rfl

theorem yr_eq_or : w = .yReg ∨ t.yr = s.yr := by
  cases h
  case yReg => exact .inl rfl
  all_goals exact .inr rfl

theorem ports_eq_or : w = .port ∨ t.ports = s.ports := by
  cases h
  case port => exact .inl rfl
  all_goals exact .inr rfl

/-- R60, R64: data memory is left alone, or one populated word of it is written. -/
theorem ram_eq_or :
    t.ram = s.ram ∨ w.writesRam = true ∧ ramPopulated s.cfg s.ea = true ∧
      ∃ v, t.ram = Memory.write s.ram s.ea v := by
  cases h
  case mem v hp => exact .inr ⟨rfl, hp, v, rfl⟩
  case memZ v z hp => exact .inr ⟨rfl, hp, v, rfl⟩
  case memZC v z c hp => exact .inr ⟨rfl, hp, v, rfl⟩
  all_goals exact .inl rfl

theorem holding_eq (hw : w.touchesBit 0 = false) : t.holding = s.holding := by
  have hbit := h.st_bit (by decide) hw
  have hcfg : t.cfg = s.cfg := by cases h <;> rfl
  rw [State.holding, State.holding, State.hFlag, State.hFlag, hbit, hcfg]

/-- R210: where H may be written the latch is cleared exactly if a hold is then on; elsewhere neither the
latch nor the hold changes. -/
theorem il_cases :
    (t.holding = s.holding ∧ t.il = s.il) ∨ t.il = if t.holding then false else s.il := by
  have hsame := h.holding_eq
  cases h
  case status | statusBit => exact .inr rfl
  all_goals exact .inl ⟨hsame rfl, rfl⟩

theorem frame :
    t.div = s.div ∧ t.pins = s.pins ∧ t.ir = s.ir ∧ t.schedule = s.schedule ∧ t.rom = s.rom ∧
      t.cfg = s.cfg := by
  cases h <;> exact ⟨rfl, rfl, rfl, rfl, rfl, rfl⟩

end After

end Sys2Proof.Machine

namespace Sys2Proof

open Machine

/-- Settles O24: the two entries of the table that write FSTK are CAL's and RTN's. -/
theorem onlyRtnResetsStackFlag : Obligations.OnlyRtnResetsStackFlag := by
  intro i s t h hne
  obtain ⟨w, hi, hafter⟩ := exists_after h
  rcases hafter.fstk_eq_or with ⟨rfl, hF⟩ | ⟨rfl, hF⟩ | heq
  · exact .inr ⟨hi, hF⟩
  · exact .inl ⟨hi, hF⟩
  · exact absurd heq hne

/-- Settles O29: EYR after an instruction is that of its entry in the table. -/
theorem yFlagAfterEveryInstruction : Obligations.YFlagAfterEveryInstruction := by
  intro i s t h
  refine ⟨?set, ?kept, ?reset⟩
  case set =>
    rintro (⟨n, rfl⟩ | rfl)
    · exact (exec_after h).eyr_eq
    · exact (exec_after h).eyr_eq
  case kept =>
    intro hi
    simp only [List.mem_cons, List.not_mem_nil, or_false] at hi
    rcases hi with rfl | rfl | rfl | rfl | rfl | rfl | rfl | rfl | rfl | rfl
    all_goals exact (exec_after h).eyr_eq
  case reset =>
    intro hlyi hsay hmem
    obtain ⟨w, hi, hafter⟩ := exists_after h
    rw [hafter.eyr_eq]
    cases w
    case yReg =>
      rcases hi with ⟨n, hn⟩ | hs
      · exact absurd hn (hlyi n)
      · exact absurd hs hsay
    case mem | memZ | memZC => exact absurd (mem_of_subset hi (by decide)) hmem
    all_goals rfl

/-- Settles O30: only an entry of the table that writes the whole status register, or the bit itself,
changes D or H. -/
theorem onlyStatusInstructionsWriteDAndH : Obligations.OnlyStatusInstructionsWriteDAndH := by
  intro i s t h
  obtain ⟨w, hi, hafter⟩ := exists_after h
  refine ⟨fun hne => ?d, fun hne => ?h⟩
  case d =>
    have hw := hafter.touchesBit_of_ne (k := 1) (by decide) hne
    cases w
    case status => exact .inl hi
    case statusBit g =>
      obtain rfl : g = 1 := eq_of_beq hw
      exact .inr hi
    all_goals cases hw
  case h =>
    have hw := hafter.touchesBit_of_ne (k := 0) (by decide) hne
    cases w
    case status => exact .inl hi
    case statusBit g =>
      obtain rfl : g = 0 := eq_of_beq hw
      exact .inr hi
    all_goals cases hw

/-- Settles O31: which entries of the table may change Z, and which C. -/
theorem onlyNamedInstructionsWriteZAndC : Obligations.OnlyNamedInstructionsWriteZAndC := by
  intro i s t h
  obtain ⟨w, hi, hafter⟩ := exists_after h
  refine ⟨fun hne => ?z, fun hne => ?c⟩
  case z =>
    have hw := hafter.touchesBit_of_ne (k := 3) (by decide) hne
    cases w
    case accZ =>
      exact hi.imp_right fun hi => .inr (.inr (.inr (mem_of_subset hi (by decide))))
    case accZC =>
      exact .inr (hi.imp_right fun hi => .inr (.inr (mem_of_subset hi (by decide))))
    case zero => exact .inr (.inr (hi.imp_right .inl))
    case status =>
      subst hi
      exact .inr (.inr (.inr (.inr (by decide))))
    case statusBit g =>
      obtain rfl : g = 3 := eq_of_beq hw
      rcases hi with rfl | rfl | rfl
      all_goals exact .inr (.inr (.inr (.inr (by decide))))
    case memZ | memZC => exact .inr (.inr (.inr (.inr (mem_of_subset hi (by decide)))))
    all_goals cases hw
  case c =>
    have hw := hafter.touchesBit_of_ne (k := 2) (by decide) hne
    cases w
    case accZC => exact hi.imp_right fun hi => mem_of_subset hi (by decide)
    case status =>
      subst hi
      exact .inr (by decide)
    case statusBit g =>
      obtain rfl : g = 2 := eq_of_beq hw
      rcases hi with rfl | rfl | rfl
      all_goals exact .inr (by decide)
    case memZC => exact .inr (mem_of_subset hi (by decide))
    all_goals cases hw

/-- Settles O32: which entries of the table write AC, the stack entry and PC. -/
theorem onlyNamedInstructionsWriteRegisters : Obligations.OnlyNamedInstructionsWriteRegisters := by
  intro i s t h
  obtain ⟨w, hi, hafter⟩ := exists_after h
  refine ⟨fun hne => ?ac, fun hne => ?stk, fun hne => ?pc⟩
  case ac =>
    have hw := hafter.ac_eq_or.resolve_right hne
    cases w
    case acc =>
      rcases hi with ⟨r, hr⟩ | ⟨n, hn⟩ | hg | hi
      · exact .inl ⟨r, .inl hr⟩
      · exact .inr (.inl ⟨n, .inl hn⟩)
      · exact .inr (.inr (.inl hg))
      · exact .inr (.inr (.inr (mem_of_subset hi (by decide))))
    case accZ =>
      rcases hi with ⟨r, hr⟩ | hi
      · exact .inl ⟨r, .inr hr⟩
      · exact .inr (.inr (.inr (mem_of_subset hi (by decide))))
    case accZC =>
      rcases hi with ⟨n, hn⟩ | hi
      · exact .inr (.inl ⟨n, .inr hn⟩)
      · exact .inr (.inr (.inr (mem_of_subset hi (by decide))))
    all_goals cases hw
  case stk =>
    obtain rfl := hafter.stk_eq_or.resolve_right hne
    exact hi
  case pc =>
    have hw := hafter.pc_eq_or.resolve_right hne
    cases w
    case jump =>
      rcases hi with ⟨ap, hj | hs | hc⟩ | hi
      · exact .inl ⟨ap, .inl hj⟩
      · exact .inl ⟨ap, .inr (.inl hs)⟩
      · exact .inl ⟨ap, .inr (.inr (.inl hc))⟩
      · exact .inr (.inr hi)
    case call =>
      obtain ⟨ap, hi⟩ := hi
      exact .inl ⟨ap, .inr (.inr (.inr hi))⟩
    case ret => exact .inr (.inl hi)
    all_goals cases hw

/-- Settles O33: an entry of the table that writes data memory writes the word at the effective address. -/
theorem onlyTenInstructionsWriteMemory : Obligations.OnlyTenInstructionsWriteMemory := by
  intro i s t h
  obtain ⟨w, hi, hafter⟩ := exists_after h
  rcases hafter.ram_eq_or with heq | ⟨hw, -, v, heq⟩
  · exact ⟨fun _ a => by rw [heq], fun a _ => by rw [heq]⟩
  · refine ⟨fun hmem => ?_, fun a ha => ?_⟩
    · cases w
      case mem | memZ | memZC => exact absurd (mem_of_subset hi (by decide)) hmem
      all_goals cases hw
    · rw [heq, Memory.read_write, if_neg ha]

/-- Settles O34: no entry of the table but the ports' writes a port register, and none writes the rest. -/
theorem instructionsLeaveTheRestAlone : Obligations.InstructionsLeaveTheRestAlone := by
  intro i s t h
  obtain ⟨w, hi, hafter⟩ := exists_after h
  obtain ⟨hdiv, hpins, hir, hsched, hrom, hcfg⟩ := hafter.frame
  refine ⟨fun hsar hsyr hclr => ?ports, hdiv, hpins, hir, hsched, hrom, hcfg, fun hil => ?latch⟩
  case ports =>
    refine hafter.ports_eq_or.resolve_left ?_
    rintro rfl
    obtain ⟨r, hr | hr | hr⟩ := hi
    · exact hsar r hr
    · exact hsyr r hr
    · exact hclr r hr
  case latch =>
    rcases hafter.il_cases with ⟨-, heq⟩ | heq
    · exact heq ▸ hil
    · rw [heq] at hil
      split at hil
      · cases hil
      · exact hil

/-- Settles O37: the address is the digits of its registers, and no entry of the table that touches data
memory writes a pointer. -/
theorem effectiveAddressRule : Obligations.EffectiveAddressRule := by
  intro s
  refine ⟨fun he => ?y, fun he => ?hl, fun i t h => ?pointers⟩
  case y =>
    rw [State.ea, if_pos he, nibble_append_toNat]
    simp
  case hl =>
    rw [State.ea, if_neg (by simp [he]), nibble_append_toNat]
    omega
  case pointers =>
    obtain ⟨w, hi, hafter⟩ := exists_after h
    refine ⟨fun hne => ?_, fun hne => ?_, fun hne => ?_⟩
    · obtain rfl := hafter.lr_eq_or.resolve_right hne
      exact hi
    · obtain rfl := hafter.hr_eq_or.resolve_right hne
      exact hi
    · obtain rfl := hafter.yr_eq_or.resolve_right hne
      exact hi

end Sys2Proof
end

section
/-! PROOFS. Fetch and the core's turn (spec/30_encoding.md R84, spec/20_memory.md R67,
spec/60_exceptions.md R215): each outcome of a fetch, and the step where the core is free to run. -/

namespace Sys2Proof.Machine

open Safety

/-! ### The outcomes of a fetch -/

section Fetch

variable {s : State} {b0 b1 : Byte} {i : Instr} {rest : List Byte} {f : Fault}

theorem State.fetch_one (hread : s.romRead s.pc = .ok b0) (hlen : isTwoByte b0 = false)
    (hdec : decode [b0] = .ok (i, rest)) : s.fetch = .ok (i, { s with ir := b0, pc := s.pc + 1 }) := by
  simp only [State.fetch, hread, hlen, Bool.false_eq_true, if_false, decodeFetched, hdec]
  rfl

theorem State.fetch_two (hread : s.romRead s.pc = .ok b0) (hlen : isTwoByte b0 = true)
    (hread' : s.romRead (s.pc + 1) = .ok b1) (hdec : decode [b0, b1] = .ok (i, rest)) :
    s.fetch = .ok (i, { s with ir := b0, pc := s.pc + 1 + 1 }) := by
  have hsecond : ((s.setIr b0).advancePc).romRead ((s.setIr b0).advancePc).pc = .ok b1 := hread'
  simp only [State.fetch, hread, hlen, if_true, hsecond, decodeFetched, hdec]
  rfl

theorem State.fetch_first_error (hread : s.romRead s.pc = .error f) : s.fetch = .error f := by
  simp only [State.fetch, hread]

theorem State.fetch_second_error (hread : s.romRead s.pc = .ok b0) (hlen : isTwoByte b0 = true)
    (hread' : s.romRead (s.pc + 1) = .error f) : s.fetch = .error f := by
  have hsecond : ((s.setIr b0).advancePc).romRead ((s.setIr b0).advancePc).pc = .error f := hread'
  simp only [State.fetch, hread, hlen, if_true, hsecond]

/-- R86: an unassigned first byte has no length bits, so nothing else is fetched. -/
theorem State.fetch_unassigned (hread : s.romRead s.pc = .ok b0) (hb : classify b0 = .unassigned) :
    s.fetch = .error (.illegalOpcode b0 s.pc) := by
  have hlen : isTwoByte b0 = false := by
    by_contra hne
    obtain ⟨op, hop⟩ := classify_eq_two (by simpa using hne)
    simp [hb] at hop
  simp only [State.fetch, hread, hlen, Bool.false_eq_true, if_false, decodeFetched,
    decode_cons_of_unassigned hb]

theorem State.romRead_unpopulated {a : ProgAddr} (h : romPopulated s.cfg a = false) :
    s.romRead a = .error (.romUnpopulated a) :=
  if_neg (by simp [h])

theorem State.romRead_of_read {a : ProgAddr} (hp : romPopulated s.cfg a = true)
    (hr : Rom.read s.rom a = some b0) : s.romRead a = .ok b0 := by
  rw [State.romRead, if_pos hp, hr]

end Fetch

/-! ### The core's turn -/

/-- R215: where the core is free to run, the step is its turn. -/
theorem step_of_coreRuns {s : State} (h : CoreRuns s) :
    step s = coreStep (s.setSchedule s.schedule.tail) := by
  obtain ⟨hv, hs | hs, hh, -⟩ := h
  · have hsame : s.setSchedule s.schedule.tail = s := by
      rw [hs, List.tail_nil, ← hs]
      rfl
    rw [hsame, step, if_pos hv, takeTurn, hs]
    exact if_neg (by simp [hh])
  · obtain ⟨rest, hrest⟩ : ∃ rest, s.schedule = .core :: rest := by
      cases hl : s.schedule with
      | nil => simp [hl] at hs
      | cons e rest => exact ⟨rest, by simp_all⟩
    rw [step, if_pos hv, takeTurn, hrest]
    rfl

section CoreRuns

variable {s : State} (h : CoreRuns s)
include h

/-- The instruction that was fetched is run. -/
theorem step_of_fetch_ok {i : Instr} {t : State} (hf : (s.setSchedule s.schedule.tail).fetch = .ok (i, t)) :
    step s = exec i t := by
  rw [step_of_coreRuns h, coreStep, if_neg, if_neg, hf]
  · exact (by simpa using h.2.2.2 : ¬(s.il && s.intEnabled) = true)
  · exact (by simpa using h.2.2.1 : ¬s.holding = true)

/-- A fetch that fails stops the machine. -/
theorem step_of_fetch_error {f : Fault} (hf : (s.setSchedule s.schedule.tail).fetch = .error f) :
    step s = .fault f := by
  rw [step_of_coreRuns h, coreStep, if_neg, if_neg, hf]
  · exact (by simpa using h.2.2.2 : ¬(s.il && s.intEnabled) = true)
  · exact (by simpa using h.2.2.1 : ¬s.holding = true)

/-- R84: the machine runs what its bytes decode to. -/
theorem step_of_bytesAtPc {b0 : Byte} {more : List Byte} {i : Instr}
    (hdec : decode (b0 :: more) = .ok (i, [])) (hbytes : BytesAtPc s (b0 :: more)) :
    step s = exec i { s with
      schedule := s.schedule.tail
      ir := b0
      pc := s.pc + BitVec.ofNat 12 (more.length + 1) } := by
  have hread : s.romRead s.pc = .ok b0 := by
    simpa using hbytes 0 b0 rfl
  rcases decode_cons_eq_ok hdec with ⟨hone, rfl⟩ | ⟨op, b1, htwo, rfl, rfl⟩
  · obtain ⟨hlen, -⟩ := classify_one hone
    exact step_of_fetch_ok h (State.fetch_one hread (by simpa using hlen) hdec)
  · have hread' : s.romRead (s.pc + 1) = .ok b1 := hbytes 1 b1 rfl
    have hpc : s.pc + 1 + 1 = s.pc + BitVec.ofNat 12 ([b1].length + 1) := BitVec.add_assoc _ _ _
    rw [← hpc]
    exact step_of_fetch_ok h (State.fetch_two hread (classify_two htwo) hread' hdec)

end CoreRuns

/-! ### The placing of an instruction -/

theorem State.releaseHold_holding (s : State) : s.releaseHold.holding = false := by
  apply State.holding_eq_false
  rw [State.releaseHold_eq]
  exact flags_bit_h _ _ _ _

section Placed

variable (s : State) (nbits w : Nat)

/-- The first byte of a table word (R83). -/
def wordByte0 : Byte := BitVec.ofNat 8 (w % 2 ^ nbits)

/-- The second byte of a table word (R83). -/
def wordByte1 : Byte := BitVec.ofNat 8 (w % 2 ^ nbits / 256)

theorem State.withFetchWord_frame :
    (s.withFetchWord nbits w).cfg = s.cfg ∧ (s.withFetchWord nbits w).pc = s.pc ∧
      (s.withFetchWord nbits w).rom =
        Rom.write (Rom.write s.rom s.pc (wordByte0 nbits w)) (s.pc + 1) (wordByte1 nbits w) ∧
      (s.withFetchWord nbits w).schedule =
        if s.schedule.isEmpty then s.schedule else .core :: s.schedule := by
  simp only [State.withFetchWord]
  split <;> split <;> split <;> simp_all [State.releaseHold, tableWordBytes, wordByte0, wordByte1]

/-- R204, R210: a hold is ended first, which leaves a request that would be accepted to be dropped. -/
theorem State.withFetchWord_free :
    (s.withFetchWord nbits w).holding = false ∧
      ((s.withFetchWord nbits w).il && (s.withFetchWord nbits w).intEnabled) = false := by
  have released (u : State) : (if u.holding then u.releaseHold else u).holding = false := by
    split
    · exact u.releaseHold_holding
    · simp_all
  simp only [State.withFetchWord]
  generalize hu : (if State.holding _ then State.releaseHold _ else _) = v
  have hv : v.holding = false := hu ▸ released _
  split
  · exact ⟨hv, rfl⟩
  · exact ⟨hv, by simp_all⟩

theorem State.withFetchWord_coreRuns (hv : validCfg s.cfg = true) :
    CoreRuns (s.withFetchWord nbits w) := by
  obtain ⟨hcfg, -, -, hsched⟩ := s.withFetchWord_frame nbits w
  obtain ⟨hhold, hint⟩ := s.withFetchWord_free nbits w
  refine ⟨hcfg ▸ hv, ?_, hhold, hint⟩
  rw [hsched]
  split
  next he => exact .inl (by simpa using he)
  next => exact .inr rfl

theorem State.withFetchWord_tail : (s.withFetchWord nbits w).schedule.tail = s.schedule := by
  obtain ⟨-, -, -, hsched⟩ := s.withFetchWord_frame nbits w
  rw [hsched]
  split
  next he => simp_all
  next => rfl

variable {s}

theorem State.withFetchWord_romRead0 (hp : romPopulated s.cfg s.pc = true) :
    (s.withFetchWord nbits w).romRead (s.withFetchWord nbits w).pc = .ok (wordByte0 nbits w) := by
  obtain ⟨hcfg, hpc, hrom, -⟩ := s.withFetchWord_frame nbits w
  have hne : s.pc ≠ s.pc + 1 := by bv_omega
  refine State.romRead_of_read (by rw [hcfg, hpc, hp]) ?_
  rw [hrom, hpc, Rom.read_write, if_neg hne, Rom.read_write, if_pos rfl]

theorem State.withFetchWord_romRead1 (hp : romPopulated s.cfg (s.pc + 1) = true) :
    (s.withFetchWord nbits w).romRead ((s.withFetchWord nbits w).pc + 1) = .ok (wordByte1 nbits w) := by
  obtain ⟨hcfg, hpc, hrom, -⟩ := s.withFetchWord_frame nbits w
  refine State.romRead_of_read (by rw [hcfg, hpc, hp]) ?_
  rw [hrom, hpc, Rom.read_write, if_pos rfl]

end Placed

theorem bytesAtPc_one {s : State} {b0 : Byte} (h : s.romRead s.pc = .ok b0) : BytesAtPc s [b0] := by
  intro k b hk
  obtain ⟨hlt, rfl⟩ := List.getElem?_eq_some_iff.mp hk
  obtain rfl : k = 0 := by simpa using hlt
  simpa using h

theorem bytesAtPc_two {s : State} {b0 b1 : Byte} (h0 : s.romRead s.pc = .ok b0)
    (h1 : s.romRead (s.pc + 1) = .ok b1) : BytesAtPc s [b0, b1] := by
  intro k b hk
  match k with
  | 0 => exact bytesAtPc_one h0 0 b hk
  | 1 =>
    cases hk
    exact h1
  | k + 2 => cases hk

theorem decodeTableWord_eq_some {nbits w : Nat} {i : Instr} (h : decodeTableWord nbits w = some i) :
    ∃ r, decode [wordByte0 nbits w, wordByte1 nbits w] = .ok (i, r) := by
  unfold decodeTableWord at h
  split at h
  next j r hj =>
    cases h
    exact ⟨r, hj⟩
  next => cases h

end Sys2Proof.Machine

namespace Sys2Proof

open Machine Safety

/-- Settles O7: these bytes are the entries of the map without an instruction, and every other entry is
decoded with the bytes it asks for. -/
theorem unassignedFirstBytesStop : Obligations.UnassignedFirstBytesStop := by
  intro b
  refine ⟨fun hb => ?_, fun hb b1 rest => ?_⟩
  · have hmap : classify b = .unassigned := (classify_eq_unassigned_iff b).mpr hb
    exact ⟨decode_cons_of_unassigned hmap, fun s hs hread =>
      step_of_fetch_error hs (State.fetch_unassigned hread hmap)⟩
  · cases hmap : classify b with
    | one i => exact ⟨i, _, decode_cons_of_one hmap _⟩
    | two op => exact ⟨_, _, decode_cons_of_two hmap b1 rest⟩
    | unassigned => exact absurd ((classify_eq_unassigned_iff b).mp hmap) hb

/-- Settles O8: the bytes at PC are those the fetch reads. -/
theorem stepRunsDecodedInstruction : Obligations.StepRunsDecodedInstruction := by
  intro s b0 more i hs hdec hbytes
  exact step_of_bytesAtPc hs hdec hbytes

/-- Settles O9: the read of either byte fails, and the fetch with it. -/
theorem fetchOutsideProgramMemoryStops : Obligations.FetchOutsideProgramMemoryStops := by
  intro s hs
  refine ⟨fun hp => ?first, fun b0 hread hlen hp => ?second⟩
  case first => exact step_of_fetch_error hs (State.fetch_first_error (State.romRead_unpopulated hp))
  case second =>
    exact step_of_fetch_error hs (State.fetch_second_error hread hlen (State.romRead_unpopulated hp))

/-- Settles O10: the placed bytes are those at PC and the core is free to run them, with as many bytes as
the instruction has. -/
theorem placedWordRunsNext : Obligations.PlacedWordRunsNext := by
  intro s nbits w i hv hp0 hp1 hdec
  have hs := s.withFetchWord_coreRuns nbits w hv
  have hread0 := State.withFetchWord_romRead0 nbits w hp0
  have hread1 := State.withFetchWord_romRead1 nbits w hp1
  have htail := s.withFetchWord_tail nbits w
  obtain ⟨-, hpc, -, -⟩ := s.withFetchWord_frame nbits w
  obtain ⟨r, hbytes⟩ := decodeTableWord_eq_some hdec
  rcases decode_cons_eq_ok hbytes with ⟨hone, -⟩ | ⟨op, b1, htwo, rfl, hrest⟩
  · obtain ⟨-, hlen⟩ := classify_one hone
    rw [step_of_bytesAtPc hs (decode_cons_of_one hone []) (bytesAtPc_one hread0), htail, hpc, hlen]
    rfl
  · cases hrest
    rw [step_of_bytesAtPc hs hbytes (bytesAtPc_two hread0 hread1), htail, hpc, AddrOp.instr_length]
    rfl

end Sys2Proof
end

section
/-! PROOFS. Which configurations a step refuses (spec/10_state.md R45, spec/20_memory.md R61, R66): the checks of
`validCfg` as propositions, and that nothing else refuses. -/

namespace Sys2Proof.Machine

/-! ### The checks of a configuration -/

/-- R45: no line selects a literal and its complement. -/
def LinesValid (m : DecodeMatrix) : Prop :=
  ∀ b ∈ [m.dec0, m.dec1, m.dec2, m.dec3, m.dec4], ∀ j, j < 4 →
    ¬(b.getLsbD (2 * j) = true ∧ b.getLsbD (2 * j + 1) = true)

/-- R61, R66: regions in rising order apart from each other, within the address space, of the part's
capacity, with the needed addresses in them. -/
def Mapped (regions : List Region) (limit capacity : Nat) (needed : List Nat) : Prop :=
  regions.Pairwise (fun r q => r.base + r.size ≤ q.base) ∧
    (∀ r ∈ regions, r.base + r.size ≤ limit) ∧ (regions.map Region.size).sum = capacity ∧
    ∀ a ∈ needed, ∃ r ∈ regions, r.base ≤ a ∧ a < r.base + r.size

theorem validMatrix_iff (m : DecodeMatrix) : validMatrix m = true ↔ LinesValid m := by
  simp only [validMatrix, LinesValid, validLine, List.all_eq_true, List.mem_range, Bool.not_eq_true',
    ← Bool.not_eq_true, Bool.and_eq_true]

/-- Regions that rise one after the other lie apart in every pair. -/
theorem regionsRise_iff (limit from_ : Nat) (rs : List Region) :
    regionsRise limit from_ rs = true ↔
      rs.Pairwise (fun r q => r.base + r.size ≤ q.base) ∧
        ∀ r ∈ rs, from_ ≤ r.base ∧ r.base + r.size ≤ limit := by
  induction rs generalizing from_ with
  | nil => simp [regionsRise]
  | cons r rs ih =>
    simp only [regionsRise, Bool.and_eq_true, decide_eq_true_eq, ih, List.pairwise_cons,
      List.forall_mem_cons]
    constructor
    · rintro ⟨⟨hfrom, hlimit⟩, hpair, hrs⟩
      exact ⟨⟨fun q hq => (hrs q hq).1, hpair⟩, ⟨hfrom, hlimit⟩,
        fun q hq => ⟨by have := (hrs q hq).1; omega, (hrs q hq).2⟩⟩
    · rintro ⟨⟨hr, hpair⟩, ⟨hfrom, hlimit⟩, hrs⟩
      exact ⟨⟨hfrom, hlimit⟩, hpair, fun q hq => ⟨hr q hq, (hrs q hq).2⟩⟩

theorem mapped_iff (regions : List Region) (limit capacity : Nat) (needed : List Nat) :
    (regionsRise limit 0 regions && regionsSize regions == capacity &&
      needed.all fun a => regions.any (inRegion a)) = true ↔ Mapped regions limit capacity needed := by
  simp [regionsRise_iff, regionsSize, inRegion, Mapped, and_assoc]

theorem ramCapacity_eq (c : Chip) : ramCapacity c = if c = .tcp4620ap then 96 else 160 := by
  cases c <;> rfl

theorem romCapacity_eq (c : Chip) : romCapacity c = if c = .tcp4620ap then 2048 else 3072 := by
  cases c <;> rfl

theorem validCfg_iff (cfg : Cfg) :
    validCfg cfg = true ↔ LinesValid cfg.dec ∧
      Mapped cfg.ramMap 256 (if cfg.chip = .tcp4620ap then 96 else 160) (List.range 16) ∧
      Mapped cfg.romMap 4096 (if cfg.chip = .tcp4620ap then 2048 else 3072) [0, 2, 4] := by
  have hram : validRamMap cfg = true ↔ Mapped cfg.ramMap 256 (ramCapacity cfg.chip) (List.range 16) :=
    mapped_iff _ _ _ _
  have hrom : validRomMap cfg = true ↔ Mapped cfg.romMap 4096 (romCapacity cfg.chip) [0, 2, 4] :=
    mapped_iff _ _ _ _
  rw [validCfg, Bool.and_eq_true, Bool.and_eq_true, hram, hrom, validMatrix_iff, ramCapacity_eq,
    romCapacity_eq, and_comm]

/-! ### Nothing else refuses -/

section Refusals

variable {s : State} (q : Refusal)

theorem State.memWrite_ne_refused (a : DataAddr) (v : Nibble) : s.memWrite a v ≠ .refused q := by
  unfold State.memWrite
  split <;> simp

theorem State.portWrite_ne_refused (r : BitVec 3) (v : Nibble) : s.portWrite r v ≠ .refused q := by
  unfold State.portWrite
  split <;> simp

theorem withPort_ne_refused (r : Except Fault (Nibble × State)) (k : Nibble → State → State) :
    withPort r k ≠ .refused q := by
  unfold withPort
  split <;> simp

theorem execRtn_ne_refused : execRtn s ≠ .refused q := by
  unfold execRtn
  split <;> simp

/-- Every instruction has its meaning. -/
theorem exec_ne_refused (i : Instr) : exec i s ≠ .refused q := by
  cases i
  case lar | ltr => exact withPort_ne_refused q _ _
  case sam | ssm | adm | acm | sum | orm | eom | cmm | icm | tsm => exact State.memWrite_ne_refused q _ _
  case sar | syr | clr => exact State.portWrite_ne_refused q _ _
  case rtn => exact execRtn_ne_refused q
  all_goals exact nofun

theorem coreStep_ne_refused : coreStep s ≠ .refused q := by
  unfold coreStep
  split
  · simp
  · split
    · simp
    · split
      · simp
      · exact exec_ne_refused q _

theorem takeTurn_ne_refused : takeTurn s ≠ .refused q := by
  unfold takeTurn
  split
  · split
    · simp
    · exact coreStep_ne_refused q
  · exact coreStep_ne_refused q
  · simp

end Refusals

end Sys2Proof.Machine

namespace Sys2Proof

open Machine

/-- Settles O11: the step's one refusal is that of `validCfg`, and its checks are those of the rules. -/
theorem invalidConfigurationRefused : Obligations.InvalidConfigurationRefused := by
  intro s
  refine ⟨fun hbad => ?refuse, fun hgood q => ?run⟩
  case refuse =>
    rw [step, if_neg]
    exact fun hv => hbad ((validCfg_iff s.cfg).mp hv)
  case run =>
    rw [step, if_pos ((validCfg_iff s.cfg).mpr hgood)]
    exact takeTurn_ne_refused q

end Sys2Proof
end

section
/-! PROOFS. The turns of the environment (spec/60_exceptions.md R202 to R215, spec/70_reset_and_hazards.md R240 to
R242): what each does to the state, in a hold and outside one. -/

namespace Sys2Proof.Machine

open Safety

/-! ### The step by the turn -/

theorem step_event {s : State} {e : Turn} {rest : List Turn} (hv : validCfg s.cfg = true)
    (hs : s.schedule = e :: rest) (he : e ≠ .core) :
    step s = .next ((s.setSchedule rest).applyTurn e) := by
  rw [step, if_pos hv, takeTurn, hs]
  cases e
  case core => exact absurd rfl he
  all_goals rfl

theorem step_core {s : State} {rest : List Turn} (hv : validCfg s.cfg = true)
    (hs : s.schedule = .core :: rest) : step s = coreStep (s.setSchedule rest) := by
  rw [step, if_pos hv, takeTurn, hs]

theorem coreStep_holding {s : State} (hh : s.holding = true) : coreStep s = .next s := if_pos hh

/-! ### Pulses -/

/-- R240: a low time of two cycles is four periods. -/
theorem resetPulseEffect_definite {low : Nat} (h : 4 ≤ low) : resetPulseEffect low = .definite := by
  rw [resetPulseEffect, if_neg (by omega)]
  exact if_pos h

theorem resetPulseEffect_indefinite {low : Nat} (h0 : 0 < low) (h4 : low < 4) :
    resetPulseEffect low = .indefinite := by
  rw [resetPulseEffect, if_neg (by omega), if_neg (by simpa [twoCycles] using h4)]

theorem intPulseEffect_ignored {high low : Nat} (h : high = 0 ∨ low = 0) :
    intPulseEffect high low = .ignored := if_pos h

theorem intPulseEffect_definite {high low : Nat} (hh : 4 ≤ high) (hl : 4 ≤ low) :
    intPulseEffect high low = .definite := by
  rw [intPulseEffect, if_neg (by omega)]
  exact if_pos ⟨hh, hl⟩

theorem intPulseEffect_indefinite {high low : Nat} (hh : 0 < high) (hl : 0 < low)
    (h : high < 4 ∨ low < 4) : intPulseEffect high low = .indefinite := by
  rw [intPulseEffect, if_neg (by omega), if_neg (by simp only [twoCycles]; omega)]

/-- Decision D22: an indefinite pulse has its whole effect or none. -/
theorem State.pulse_indefinite (s : State) (f : State → State) :
    s.pulse .indefinite f = s.countDraw ∨ s.pulse .indefinite f = f s.countDraw := by
  unfold State.pulse
  cases Config.indefinitePulse s.draws
  · exact .inl rfl
  · exact .inr rfl

/-- R202, R214: the three kinds of INT pulse, where a request leaves `latch` in the latch. -/
theorem step_intPulse {s : State} {high low : Nat} {rest : List Turn} {latch : Bool}
    (hv : validCfg s.cfg = true) (hs : s.schedule = .intPulse high low :: rest)
    (hreq : ∀ n, ({ s with schedule := rest, draws := n } : State).requestInterrupt =
      { s with il := latch, schedule := rest, draws := n }) :
    (4 ≤ high → 4 ≤ low → step s = .next { s with il := latch, schedule := rest }) ∧
      (high = 0 ∨ low = 0 → step s = .next { s with schedule := rest }) ∧
      (0 < high → 0 < low → high < 4 ∨ low < 4 →
        step s = .next { s with schedule := rest, draws := s.draws + 1 } ∨
          step s = .next { s with il := latch, schedule := rest, draws := s.draws + 1 }) := by
  have hstep := step_event hv hs (by simp)
  rw [State.applyTurn] at hstep
  refine ⟨fun hh hl => ?definite, fun h0 => ?ignored, fun hh hl h4 => ?indefinite⟩
  case definite =>
    rw [hstep, intPulseEffect_definite hh hl]
    exact congrArg _ (hreq s.draws)
  case ignored =>
    rw [hstep, intPulseEffect_ignored h0]
    rfl
  case indefinite =>
    rw [hstep, intPulseEffect_indefinite hh hl h4]
    refine ((s.setSchedule rest).pulse_indefinite State.requestInterrupt).imp (fun h => ?_) fun h => ?_
    · rw [h]
      rfl
    · rw [h]
      exact congrArg _ (hreq (s.draws + 1))

theorem State.requestInterrupt_outside_hold {s : State} (hh : s.holding = false) :
    s.requestInterrupt = { s with il := true } :=
  if_neg (by simp [hh])

theorem State.requestInterrupt_in_hold {s : State} (hh : s.holding = true) :
    s.requestInterrupt = { s with il := if s.cfg.intInHold = .latched then true else s.il } := by
  rw [State.requestInterrupt, if_pos hh]
  cases hp : s.cfg.intInHold
  · rfl
  · rfl

end Sys2Proof.Machine

namespace Sys2Proof

open Machine Safety

/-- Settles O16: a pulse of four periods has its effect, which clears D and H in ST. -/
theorem resetPulseInitializes : Obligations.ResetPulseInitializes := by
  intro s low rest hv hs hlow
  rw [step_event hv hs (by simp), State.applyTurn, resetPulseEffect_definite hlow, State.pulse,
    State.initialize_eq, and_clearing_d_h]
  rfl

/-- Settles O17: a shorter pulse has the whole effect or none, by the value it draws. -/
theorem shortResetPulseIsAllOrNothing : Obligations.ShortResetPulseIsAllOrNothing := by
  intro s low rest hv hs h0 h4
  rw [step_event hv hs (by simp), State.applyTurn, resetPulseEffect_indefinite h0 h4]
  exact ((s.setSchedule rest).pulse_indefinite _).imp (congrArg _) (congrArg _)

/-- Settles O18: outside a hold a request sets the latch. -/
theorem interruptRequestSetsLatch : Obligations.InterruptRequestSetsLatch := by
  intro s high low rest hv hs hh
  exact step_intPulse hv hs fun _ => State.requestInterrupt_outside_hold hh

/-- Settles O19: in a hold the parameter says what a request does to the latch. -/
theorem interruptRequestInHold : Obligations.InterruptRequestInHold := by
  intro s high low rest hv hs hh
  exact step_intPulse hv hs fun _ => State.requestInterrupt_in_hold hh

/-- Settles O20: the turn sets the pins, whether or not the machine holds. -/
theorem pinChangeSetsPins : Obligations.PinChangeSetsPins := by
  intro s levels rest hv hs
  rw [step_event hv hs (by simp)]
  rfl

/-- Settles O21: the latch is looked at before the fetch. -/
theorem interruptAccepted : Obligations.InterruptAccepted := by
  intro s hv hs hil heyr hfstk hh
  have haccept (u : State) (hu : (u.il && u.intEnabled) = true) (huh : u.holding = false) :
      coreStep u = .next u.acceptInterrupt := by
    rw [coreStep, if_neg (by simp [huh]), if_pos hu]
  have hen : (s.il && s.intEnabled) = true := by
    simp [State.intEnabled, hil, heyr, hfstk, hh]
  rcases hs with hs | hs
  · have hstep : step s = coreStep s := by
      rw [step, if_pos hv, takeTurn, hs]
      exact if_neg (by simp [hh])
    rw [hstep, haccept s hen hh, State.acceptInterrupt_eq, hs, List.tail_nil, ← hs]
  · obtain ⟨rest, hrest⟩ := List.head?_eq_some_iff.mp hs
    rw [step_core hv hrest, haccept (s.setSchedule rest) hen hh, hrest]
    rfl

/-- Settles O25: while the machine holds, the core's turn is spent on nothing. -/
theorem coreIdlesInHold : Obligations.CoreIdlesInHold := by
  intro s rest hv hs hh
  rw [step_core hv hs]
  exact coreStep_holding (s := s.setSchedule rest) hh

end Sys2Proof
end

section
/-! PROOFS. The divider and the end of a hold (spec/60_exceptions.md R212, R221 to R224). The divider is followed
as a number; `periodsToEdge` counts the periods of CP until C3 can fall at the latest, and every period in a
hold ends it or brings that number down. -/

namespace Sys2Proof.Machine

open Safety

/-! ### The divider as a number -/

theorem divider2_toNat (d : BitVec 16) : (divider2 d).toNat = d.toNat / 4 := by
  simp only [divider2, BitVec.extractLsb'_toNat, Nat.shiftRight_eq_div_pow]
  omega

theorem add_one_toNat (d : BitVec 16) : (d + 1).toNat = (d.toNat + 1) % 65536 := by
  simp [BitVec.toNat_add]

/-- R221: a binary count of 16 stages, where nothing resets divider (2). -/
theorem dividerTick_toNat {typ : Typ} (h : typ ≠ .typ002) (d : BitVec 16) :
    (dividerTick typ d).toNat = (d.toNat + 1) % 65536 := by
  have hreset : resetsAt12500 typ = false := by
    cases typ
    case typ002 => exact absurd rfl h
    all_goals rfl
  rw [dividerTick, hreset, Bool.false_and, if_neg Bool.false_ne_true, add_one_toNat]

/-- R224: divider (2) of TYP002 goes back to 0 from 12500, while the two front stages count on. -/
theorem dividerTick_typ002_toNat (d : BitVec 16) :
    (dividerTick .typ002 d).toNat =
      if (d.toNat + 1) % 65536 / 4 = 12500 then (d.toNat + 1) % 65536 % 4
      else (d.toNat + 1) % 65536 := by
  have hiff : (resetsAt12500 .typ002 && divider2 (d + 1) == 12500#14) = true ↔
      (d.toNat + 1) % 65536 / 4 = 12500 := by
    rw [resetsAt12500, Bool.true_and, beq_iff_eq, ← BitVec.toNat_inj, divider2_toNat, add_one_toNat]
    rfl
  rw [dividerTick]
  by_cases hr : (d.toNat + 1) % 65536 / 4 = 12500
  · rw [if_pos (hiff.mpr hr), if_pos hr]
    calc (0#14 ++ (d + 1).extractLsb' 0 2).toNat
        = (0#14).toNat <<< 2 ||| ((d + 1).extractLsb' 0 2).toNat := BitVec.toNat_append _ _
      _ = (d.toNat + 1) % 65536 % 4 := by simp
  · rw [if_neg (fun h => hr (hiff.mp h)), if_neg hr, add_one_toNat]

/-- R224: so the divider of TYP002 counts modulo 4 times 12500. -/
theorem dividerTick_typ002_of_lt {d : BitVec 16} (h : d.toNat < 50000) :
    (dividerTick .typ002 d).toNat = (d.toNat + 1) % 50000 := by
  rw [dividerTick_typ002_toNat]
  split <;> omega

theorem getLsbD_eq_true_iff (d : BitVec 16) (k : Nat) : d.getLsbD k = true ↔ d.toNat / 2 ^ k % 2 = 1 := by
  rw [BitVec.getLsbD, Nat.testBit_eq_decide_div_mod_eq, decide_eq_true_iff]

/-! ### A period of CP in a hold -/

/-- R222, R223: the bit of the divider that C3 is, for the three types that hold. -/
theorem stageBit_c3_of_mem {typ : Typ} {c3 : Nat}
    (h : (typ, c3) ∈ [(Typ.typ001, 13), (.typ002, 15), (.typ003, 15)]) : stageBit (c3Stage typ) = c3 := by
  simp only [List.mem_cons, Prod.mk.injEq, List.not_mem_nil, or_false] at h
  rcases h with ⟨rfl, rfl⟩ | ⟨rfl, rfl⟩ | ⟨rfl, rfl⟩ <;> rfl

/-- A period of CP, where C3 falls in a hold. -/
theorem State.tickDivider_of_fall {s : State} (hh : s.holding = true) (h3 : s.c3 = true)
    (hfall : stageLevel (dividerTick s.cfg.typ s.div) (c3Stage s.cfg.typ) = false) :
    s.tickDivider =
      { s with div := dividerTick s.cfg.typ s.div, st := flags s.zFlag s.cFlag s.dFlag false } := by
  rw [State.tickDivider_eq, and_clearing_h, if_pos (by simp [hh, h3, hfall])]
  rfl

/-- A period of CP, where C3 does not fall. -/
theorem State.tickDivider_of_no_fall {s : State}
    (h : ¬(s.c3 = true ∧ stageLevel (dividerTick s.cfg.typ s.div) (c3Stage s.cfg.typ) = false)) :
    s.tickDivider = { s with div := dividerTick s.cfg.typ s.div } := by
  rw [State.tickDivider_eq, if_neg]
  simp only [Bool.and_eq_true, Bool.not_eq_true', and_assoc]
  exact fun hc => h hc.2

theorem State.tickDivider_outside_hold {s : State} (hh : s.holding = false) :
    s.tickDivider = { s with div := dividerTick s.cfg.typ s.div } := by
  rw [State.tickDivider_eq, if_neg (by simp [hh])]

/-- How many periods of CP it takes until C3 falls, at the latest. The divider of TYP002 can be found above
its range, from where it counts on to the top (R224). -/
def periodsToEdge (typ : Typ) (d : Nat) : Nat :=
  match typ with
  | .typ001 => 16384 - d % 16384
  | .typ002 => if d < 50000 then 50000 - d else 65536 - d
  | .typ003 | .typ004 | .typ005 | .typ006 => 65536 - d

theorem periodsToEdge_pos (typ : Typ) (d : BitVec 16) : 0 < periodsToEdge typ d.toNat := by
  have hd := d.isLt
  cases typ
  case typ002 =>
    simp only [periodsToEdge]
    split <;> omega
  all_goals
    simp only [periodsToEdge]
    omega

theorem periodsToEdge_le (typ : Typ) (d : BitVec 16) : periodsToEdge typ d.toNat ≤ 65536 := by
  cases typ
  case typ002 =>
    simp only [periodsToEdge]
    split <;> omega
  all_goals
    simp only [periodsToEdge]
    omega

/-- R212: every period of CP lets C3 fall or brings its fall nearer, whatever the divider holds. -/
theorem c3_falls_or_nearer {typ : Typ} (hold : holdByHFlag typ = true) (d : BitVec 16) :
    (stageLevel d (c3Stage typ) = true ∧ stageLevel (dividerTick typ d) (c3Stage typ) = false) ∨
      periodsToEdge typ (dividerTick typ d).toNat < periodsToEdge typ d.toNat := by
  have hd := d.isLt
  simp only [stageLevel, ← Bool.not_eq_true, getLsbD_eq_true_iff]
  cases typ
  case typ001 =>
    simp only [dividerTick_toNat (typ := .typ001) (by decide), c3Stage, stageBit, periodsToEdge]
    omega
  case typ002 =>
    simp only [dividerTick_typ002_toNat, c3Stage, stageBit, periodsToEdge]
    split <;> split <;> split <;> omega
  case typ003 =>
    simp only [dividerTick_toNat (typ := .typ003) (by decide), c3Stage, stageBit, periodsToEdge]
    omega
  all_goals cases hold

/-- R212: a period of CP in a hold ends it, or leaves it with the fall of C3 nearer. -/
theorem State.tickDivider_in_hold {s : State} (hh : s.holding = true) :
    ∃ d, s.tickDivider = { s with div := d, st := flags s.zFlag s.cFlag s.dFlag false } ∨
      s.tickDivider = { s with div := d } ∧
        periodsToEdge s.cfg.typ d.toNat < periodsToEdge s.cfg.typ s.div.toNat := by
  refine ⟨dividerTick s.cfg.typ s.div, ?_⟩
  have hold : holdByHFlag s.cfg.typ = true := by
    rw [State.holding, Bool.and_eq_true] at hh
    exact hh.1
  by_cases hfall : s.c3 = true ∧ stageLevel (dividerTick s.cfg.typ s.div) (c3Stage s.cfg.typ) = false
  · exact .inl (State.tickDivider_of_fall hh hfall.1 hfall.2)
  · exact .inr ⟨State.tickDivider_of_no_fall hfall, (c3_falls_or_nearer hold s.div).resolve_left hfall⟩

theorem State.holding_of_flags (s : State) (z c d : Bool) :
    ({ s with st := flags z c d false } : State).holding = false :=
  State.holding_eq_false (flags_bit_h z c d false)

/-! ### Runs -/

theorem run_succ {s u : State} (h : step s = .next u) (n : Nat) :
    Host.Core.run core (n + 1) s = Host.Core.run core n u := by
  have hcore : core.step s = .next u := h
  simp only [Host.Core.run, hcore]

/-- Outside a hold, periods of CP move the divider only. -/
theorem run_divTicks_outside_hold (n : Nat) {s : State} {rest : List Turn} (hv : validCfg s.cfg = true)
    (hh : s.holding = false) (hs : s.schedule = List.replicate n .divTick ++ rest) :
    ∃ d, Host.Core.run core n s = .next { s with div := d, schedule := rest } := by
  induction n generalizing s with
  | zero =>
    obtain rfl : s.schedule = rest := hs
    exact ⟨s.div, rfl⟩
  | succ n ih =>
    have hs' : s.schedule = .divTick :: (List.replicate n .divTick ++ rest) := hs
    have hstep := step_event hv hs' (by simp)
    rw [State.applyTurn, State.tickDivider_outside_hold
      (s := s.setSchedule (List.replicate n Turn.divTick ++ rest)) hh] at hstep
    obtain ⟨d, hd⟩ := ih (s := { s with
      schedule := List.replicate n .divTick ++ rest, div := dividerTick s.cfg.typ s.div }) hv hh rfl
    exact ⟨d, (run_succ hstep n).trans hd⟩

/-- R212: in a hold, as many periods of CP as it takes until C3 falls end it, and only H has changed. -/
theorem run_divTicks_in_hold (n : Nat) {s : State} {rest : List Turn} (hv : validCfg s.cfg = true)
    (hh : s.holding = true) (hn : periodsToEdge s.cfg.typ s.div.toNat ≤ n)
    (hs : s.schedule = List.replicate n .divTick ++ rest) :
    ∃ d, Host.Core.run core n s =
      .next { s with st := flags s.zFlag s.cFlag s.dFlag false, div := d, schedule := rest } := by
  induction n generalizing s with
  | zero => exact absurd (periodsToEdge_pos s.cfg.typ s.div) (by omega)
  | succ n ih =>
    have hs' : s.schedule = .divTick :: (List.replicate n .divTick ++ rest) := hs
    have hstep := step_event hv hs' (by simp)
    obtain ⟨d, htick | ⟨htick, hlt⟩⟩ := State.tickDivider_in_hold
      (s := s.setSchedule (List.replicate n .divTick ++ rest)) hh
    · rw [State.applyTurn, htick] at hstep
      obtain ⟨d', hrun⟩ := run_divTicks_outside_hold n (s := { s with
        schedule := List.replicate n .divTick ++ rest, div := d
        st := flags s.zFlag s.cFlag s.dFlag false }) hv (State.holding_of_flags _ _ _ _) rfl
      exact ⟨d', (run_succ hstep n).trans hrun⟩
    · rw [State.applyTurn, htick] at hstep
      obtain ⟨d', hrun⟩ := ih (s := { s with
        schedule := List.replicate n .divTick ++ rest, div := d }) hv hh (Nat.le_of_lt_succ (hlt.trans_le hn)) rfl
      exact ⟨d', (run_succ hstep n).trans hrun⟩

/-- R211, R212: with no turn to come the clock ends the hold. -/
theorem run_no_turn_ends_hold (n : Nat) {s : State} (hv : validCfg s.cfg = true) (hs : s.schedule = [])
    (hh : s.holding = true) (hn : periodsToEdge s.cfg.typ s.div.toNat ≤ n) :
    ∃ k u, k ≤ n ∧ Host.Core.run core k s = .next u ∧ u.holding = false := by
  induction n generalizing s with
  | zero => exact absurd (periodsToEdge_pos s.cfg.typ s.div) (by omega)
  | succ n ih =>
    have hstep := step_hold_no_turn hv hs hh
    obtain ⟨d, htick | ⟨htick, hlt⟩⟩ := State.tickDivider_in_hold hh
    · rw [htick] at hstep
      exact ⟨1, _, by omega, run_succ hstep 0, State.holding_of_flags _ _ _ _⟩
    · rw [htick] at hstep
      obtain ⟨k, u, hk, hrun, hu⟩ := ih (s := { s with div := d }) hv hs hh (Nat.le_of_lt_succ (hlt.trans_le hn))
      exact ⟨k + 1, u, by omega, (run_succ hstep k).trans hrun, hu⟩

/-! ### The frame of a turn -/

/-- What a pulse makes of a state, for every property of its two effects. -/
theorem State.pulse_induction {P : State → Prop} {s : State} {f : State → State} (e : PulseEffect)
    (hs : P s) (hd : P s.countDraw) (hf : ∀ u, P u → P (f u)) : P (s.pulse e f) := by
  rcases s.pulse_cases e f with h | h | h | h <;> rw [h]
  · exact hs
  · exact hf s hs
  · exact hf _ hd
  · exact hd

/-- R4, R215: no event changes the mask or the turns to come. -/
theorem State.applyTurn_frame (s : State) (e : Turn) :
    (s.applyTurn e).rom = s.rom ∧ (s.applyTurn e).cfg = s.cfg ∧ (s.applyTurn e).schedule = s.schedule := by
  cases e with
  | core => exact ⟨rfl, rfl, rfl⟩
  | resetPulse low =>
    exact State.pulse_induction (P := fun u => u.rom = s.rom ∧ u.cfg = s.cfg ∧ u.schedule = s.schedule) _
      ⟨rfl, rfl, rfl⟩ ⟨rfl, rfl, rfl⟩ fun _ hu => hu
  | intPulse high low =>
    refine State.pulse_induction (P := fun u => u.rom = s.rom ∧ u.cfg = s.cfg ∧ u.schedule = s.schedule) _
      ⟨rfl, rfl, rfl⟩ ⟨rfl, rfl, rfl⟩ fun u hu => ?_
    rcases u.requestInterrupt_eq with h | h <;> rw [h] <;> exact hu
  | divTick =>
    rw [State.applyTurn, State.tickDivider_eq]
    exact ⟨rfl, rfl, rfl⟩
  | pinChange p => exact ⟨rfl, rfl, rfl⟩

/-- In a hold every turn is taken, the core's by doing nothing. -/
theorem step_turn_in_hold {s : State} {e : Turn} {rest : List Turn} (hv : validCfg s.cfg = true)
    (hs : s.schedule = e :: rest) (hh : s.holding = true) :
    ∃ u, step s = .next u ∧ u.cfg = s.cfg ∧ u.schedule = rest := by
  by_cases he : e = .core
  · subst he
    exact ⟨s.setSchedule rest, (step_core hv hs).trans (coreStep_holding (s := s.setSchedule rest) hh), rfl, rfl⟩
  · obtain ⟨-, hcfg, hsched⟩ := (s.setSchedule rest).applyTurn_frame e
    exact ⟨_, step_event hv hs he, hcfg, hsched⟩

/-- R212, decision D14: after any turns to come the clock ends the hold. -/
theorem run_turns_end_hold (turns : List Turn) {s : State} (hv : validCfg s.cfg = true)
    (hs : s.schedule = turns) (hh : s.holding = true) :
    ∃ n u, n ≤ turns.length + 65536 ∧ Host.Core.run core n s = .next u ∧ u.holding = false := by
  induction turns generalizing s with
  | nil =>
    simpa using run_no_turn_ends_hold 65536 hv hs hh (periodsToEdge_le s.cfg.typ s.div)
  | cons e rest ih =>
    obtain ⟨u, hstep, hcfg, hsched⟩ := step_turn_in_hold hv hs hh
    cases hu : u.holding with
    | false => exact ⟨1, u, by omega, run_succ hstep 0, hu⟩
    | true =>
      obtain ⟨n, v, hn, hrun, hend⟩ := ih (hcfg ▸ hv) hsched hu
      exact ⟨n + 1, v, by rw [List.length_cons]; omega, (run_succ hstep n).trans hrun, hend⟩

end Sys2Proof.Machine

namespace Sys2Proof

open Machine Safety

/-- Settles O26: by its own turn or by the clock, a period of CP resets H exactly where C3 falls. -/
theorem holdEndsOnTrailingEdgeOfC3 : Obligations.HoldEndsOnTrailingEdgeOfC3 := by
  intro s rest c3 hv hs hh hmem
  have hstep : step s = .next (s.setSchedule rest).tickDivider := by
    rcases hs with hs | ⟨hs, rfl⟩
    · exact step_event hv hs (by simp)
    · rw [step_hold_no_turn hv hs hh, ← hs]
      rfl
  obtain rfl := stageBit_c3_of_mem hmem
  refine ⟨_, hstep, ?_⟩
  by_cases hfall : s.c3 = true ∧ stageLevel (dividerTick s.cfg.typ s.div) (c3Stage s.cfg.typ) = false
  · rw [State.tickDivider_of_fall (s := s.setSchedule rest) hh hfall.1 hfall.2]
    exact ⟨rfl, fun _ => rfl, fun hno => absurd hfall hno⟩
  · rw [State.tickDivider_of_no_fall (s := s.setSchedule rest) hfall]
    exact ⟨rfl, fun hyes => absurd hyes hfall, fun _ => rfl⟩

/-- Settles O27: by induction on the periods, and on the turns to come before them. -/
theorem holdEndsWithinOneDividerRound : Obligations.HoldEndsWithinOneDividerRound := by
  intro s hv hh
  refine ⟨fun n rest hn => ?_, run_turns_end_hold s.schedule hv rfl hh⟩
  exact run_divTicks_in_hold n (s := { s with schedule := List.replicate n .divTick ++ rest }) hv hh
    ((periodsToEdge_le s.cfg.typ s.div).trans hn) rfl

/-- Settles O28: the divider counts by its type; H is reset in a hold at most. -/
theorem dividerCountsBasicClock : Obligations.DividerCountsBasicClock := by
  intro s rest hv hs hrange
  have hcount : (dividerTick s.cfg.typ s.div).toNat =
      (s.div.toNat + 1) % (if s.cfg.typ = .typ002 then 50000 else 65536) := by
    split
    next hty =>
      rw [hty]
      exact dividerTick_typ002_of_lt (hrange hty)
    next hty => exact dividerTick_toNat hty s.div
  refine ⟨_, step_event hv hs (by simp), ?_⟩
  rw [State.applyTurn]
  rcases (s.setSchedule rest).tickDivider_cases with h | ⟨hh, h⟩
  · rw [h]
    exact ⟨hcount, rfl, .inl rfl⟩
  · rw [h, State.releaseHold_eq]
    exact ⟨hcount, rfl, .inr ⟨hh, rfl⟩⟩

end Sys2Proof
end

section
/-! PROOFS. What every step keeps: the mask (spec/00_scope.md R4, spec/20_memory.md R65) and the invariant of the
machine. The invariant is kept by each thing a step can be made of: the fetch, an instruction, the
acceptance of an interrupt, a period of CP, and an event of the environment. -/

namespace Sys2Proof.Machine

open Safety

/-! ### The mask -/

/-- R84: a fetch moves PC and IR only. -/
theorem State.fetch_frame {s t : State} {i : Instr} (h : s.fetch = .ok (i, t)) :
    ∃ b p, t = { s with ir := b, pc := p } := by
  obtain ⟨b0, -, ⟨-, -, rfl⟩ | ⟨b1, -, -, -, rfl⟩⟩ := State.fetch_ok h
  · exact ⟨b0, _, rfl⟩
  · exact ⟨b0, _, rfl⟩

theorem coreStep_mask {s t : State} (h : coreStep s = .next t) : t.rom = s.rom ∧ t.cfg = s.cfg := by
  rcases coreStep_next h with ⟨-, rfl⟩ | ⟨-, -, -, rfl⟩ | ⟨-, i, u, hf, he⟩
  · exact ⟨rfl, rfl⟩
  · exact ⟨rfl, rfl⟩
  · obtain ⟨b, p, rfl⟩ := State.fetch_frame hf
    obtain ⟨-, -, -, -, hrom, hcfg⟩ := (exec_after he).frame
    exact ⟨hrom, hcfg⟩

/-! ### The invariant, part by part -/

/-- An update that leaves the memories, the mask and the divider alone keeps the invariant if it keeps the
latch clear in a hold. -/
theorem inv_of_same_memory {s t : State} (hs : Inv s) (hram : t.ram = s.ram) (hrom : t.rom = s.rom)
    (hcfg : t.cfg = s.cfg) (hdiv : t.div = s.div)
    (hlatch : t.holding = true → t.cfg.intInHold = .dropped → t.il = false) : Inv t where
  ramForm := hram ▸ hs.ramForm
  ramOnlyPopulated := by
    rw [hram, hcfg]
    exact hs.ramOnlyPopulated
  romForm := hrom ▸ hs.romForm
  holdDropsRequest := hlatch
  dividerRange := by
    rw [hcfg, hdiv]
    exact hs.dividerRange

theorem inv_setSchedule {s : State} (hs : Inv s) (l : List Turn) : Inv (s.setSchedule l) :=
  inv_of_same_memory hs rfl rfl rfl rfl hs.holdDropsRequest

theorem inv_countDraw {s : State} (hs : Inv s) : Inv s.countDraw :=
  inv_of_same_memory hs rfl rfl rfl rfl hs.holdDropsRequest

theorem inv_fetched {s : State} (hs : Inv s) (b : Byte) (p : ProgAddr) :
    Inv { s with ir := b, pc := p } :=
  inv_of_same_memory hs rfl rfl rfl rfl hs.holdDropsRequest

theorem inv_acceptInterrupt {s : State} (hs : Inv s) : Inv s.acceptInterrupt :=
  inv_of_same_memory hs rfl rfl rfl rfl fun _ _ => rfl

/-- A write to a populated word keeps the canonical form and lists no other address. -/
theorem ramOnlyPopulated_write {cfg : Cfg} {m : List (Nat × Nibble)} {a : DataAddr} {v : Nibble}
    (hm : ∀ c ∈ m, ramPopulated cfg (BitVec.ofNat 8 c.1) = true) (ha : ramPopulated cfg a = true) :
    ∀ c ∈ Memory.write m a v, ramPopulated cfg (BitVec.ofNat 8 c.1) = true := by
  intro c hc
  rcases Memory.mem_write hc with rfl | hc
  · simpa using ha
  · exact hm c hc

/-- R210: an instruction that finds no hold begins one only by clearing the latch. -/
theorem After.latch {s t : State} {w : Writes} (h : After s w t) (hh : s.holding = false)
    (ht : t.holding = true) : t.il = false := by
  rcases h.il_cases with ⟨hsame, -⟩ | hil
  · simp [hsame, hh] at ht
  · rw [hil, if_pos ht]

/-- R60, R64, R210: an instruction keeps the invariant. -/
theorem inv_exec {i : Instr} {s t : State} (hs : Inv s) (hh : s.holding = false)
    (h : exec i s = .next t) : Inv t := by
  have hafter := exec_after h
  obtain ⟨hdiv, -, -, -, hrom, hcfg⟩ := hafter.frame
  have hlatch : t.holding = true → t.cfg.intInHold = .dropped → t.il = false :=
    fun ht _ => hafter.latch hh ht
  rcases hafter.ram_eq_or with hram | ⟨-, hp, v, hram⟩
  · exact inv_of_same_memory hs hram hrom hcfg hdiv hlatch
  · exact {
      ramForm := hram ▸ Memory.wf_write_canonical s.ea v hs.ramForm
      ramOnlyPopulated := by
        rw [hram, hcfg]
        exact ramOnlyPopulated_write hs.ramOnlyPopulated hp
      romForm := hrom ▸ hs.romForm
      holdDropsRequest := hlatch
      dividerRange := by
        rw [hcfg, hdiv]
        exact hs.dividerRange }

theorem inv_coreStep {s t : State} (hs : Inv s) (h : coreStep s = .next t) : Inv t := by
  rcases coreStep_next h with ⟨-, rfl⟩ | ⟨-, -, -, rfl⟩ | ⟨hh, i, u, hf, he⟩
  · exact hs
  · exact inv_acceptInterrupt hs
  · obtain ⟨b, p, rfl⟩ := State.fetch_frame hf
    exact inv_exec (inv_fetched hs b p) hh he

/-- R224: the count of divider (2) of TYP002 stays in its range. -/
theorem divider2_dividerTick_lt {d : BitVec 16} (h : (divider2 d).toNat < 12500) :
    (divider2 (dividerTick .typ002 d)).toNat < 12500 := by
  rw [divider2_toNat] at h ⊢
  rw [dividerTick_typ002_of_lt (by omega)]
  omega

/-- R212, R221: a period of CP begins no hold. -/
theorem inv_tickDivider {s : State} (hs : Inv s) : Inv s.tickDivider := by
  have hrange : s.cfg.typ = .typ002 → (divider2 (dividerTick s.cfg.typ s.div)).toNat < 12500 := by
    intro hty
    rw [hty]
    exact divider2_dividerTick_lt (hs.dividerRange hty)
  rcases s.tickDivider_cases with h | ⟨-, h⟩
  · rw [h]
    exact ⟨hs.ramForm, hs.ramOnlyPopulated, hs.romForm, hs.holdDropsRequest, hrange⟩
  · rw [h]
    refine ⟨hs.ramForm, hs.ramOnlyPopulated, hs.romForm, fun hh _ => ?_, hrange⟩
    rw [State.releaseHold_holding] at hh
    cases hh

/-- R214: a request leaves the latch clear in a hold, where the parameter drops it. -/
theorem inv_requestInterrupt {s : State} (hs : Inv s) : Inv s.requestInterrupt := by
  cases hh : s.holding with
  | false =>
    rw [State.requestInterrupt_outside_hold hh]
    refine inv_of_same_memory hs rfl rfl rfl rfl fun hnow _ => ?_
    have hsame : s.holding = true := hnow
    simp [hh] at hsame
  | true =>
    rw [State.requestInterrupt_in_hold hh]
    refine inv_of_same_memory hs rfl rfl rfl rfl fun _ hdrop => ?_
    have hdrop' : s.cfg.intInHold = .dropped := hdrop
    simpa [hdrop'] using hs.holdDropsRequest hh hdrop'

theorem inv_applyTurn {s : State} (hs : Inv s) (e : Turn) : Inv (s.applyTurn e) := by
  cases e with
  | core => exact hs
  | resetPulse low =>
    refine State.pulse_induction _ hs (inv_countDraw hs) fun u hu => ?_
    exact inv_of_same_memory hu rfl rfl rfl rfl fun _ _ => rfl
  | intPulse high low =>
    exact State.pulse_induction _ hs (inv_countDraw hs) fun u hu => inv_requestInterrupt hu
  | divTick => exact inv_tickDivider hs
  | pinChange p => exact inv_of_same_memory hs rfl rfl rfl rfl hs.holdDropsRequest

end Sys2Proof.Machine

namespace Sys2Proof

open Machine Safety

/-- Settles O12: none of the things a step can be writes ROM or CFG. -/
theorem stepNeverChangesMask : Obligations.StepNeverChangesMask := by
  intro s t h
  obtain ⟨-, ⟨-, -, hcore⟩ | ⟨-, -, rfl⟩ | ⟨rest, -, hcore⟩ | ⟨e, rest, -, -, rfl⟩⟩ := step_next h
  · exact coreStep_mask hcore
  · rw [State.tickDivider_eq]
    exact ⟨rfl, rfl⟩
  · exact coreStep_mask (s := s.setSchedule rest) hcore
  · obtain ⟨hrom, hcfg, -⟩ := (s.setSchedule rest).applyTurn_frame e
    exact ⟨hrom, hcfg⟩

/-- Settles O13: each of the things a step can be keeps the invariant. -/
theorem stepKeepsInvariant : Obligations.StepKeepsInvariant := by
  intro s t hs h
  obtain ⟨-, ⟨-, -, hcore⟩ | ⟨-, -, rfl⟩ | ⟨rest, -, hcore⟩ | ⟨e, rest, -, -, rfl⟩⟩ := step_next h
  · exact inv_coreStep hs hcore
  · exact inv_tickDivider hs
  · exact inv_coreStep (inv_setSchedule hs rest) hcore
  · exact inv_applyTurn (inv_setSchedule hs rest) e

/-- Settles O14: both memories are empty, H is 0 and so is the divider. -/
theorem resetMeetsInvariant : Obligations.ResetMeetsInvariant where
  ramForm := State.reset_memory_wf.1
  ramOnlyPopulated := nofun
  romForm := State.reset_memory_wf.2
  holdDropsRequest := fun _ _ => rfl
  dividerRange := fun _ => by decide

end Sys2Proof
end

section
/-! PROOFS. A latched request that waits (spec/60_exceptions.md R203): no fetch and no instruction looks at the
latch, so with it set each does the same and keeps it, but for a status write that begins a hold. -/

namespace Sys2Proof.Machine

open Safety

/-- The meaning does not look at the latch, and leaves it as it is. -/
def IgnoresLatch (meaning : State → Result) : Prop :=
  ∀ (s t : State) (b : Bool), meaning s = .next t → meaning (s.setIl b) = .next (t.setIl b)

/-! ### The shared operations -/

theorem State.memRead_setIl (s : State) (a : DataAddr) (b : Bool) :
    (s.setIl b).memRead a = ((s.memRead a).1, (s.memRead a).2.setIl b) := by
  unfold State.memRead
  rw [State.setIl_cfg]
  split <;> rfl

theorem State.portRead_setIl (s : State) (r : BitVec 3) (b : Bool) :
    (s.setIl b).portRead r = (s.portRead r).map fun p => (p.1, p.2.setIl b) := by
  unfold State.portRead
  generalize r.toNat = n
  match n with
  | 0 =>
    have hout : (s.setIl b).port0Output = s.port0Output := rfl
    simp only [hout]
    split <;> rfl
  | 1 | 2 | 3 | 4 | 5 | 6 | n + 7 => rfl

theorem withPort_ignoresLatch (r : BitVec 3) {k : Nibble → State → State}
    (hk : ∀ v u b, k v (u.setIl b) = (k v u).setIl b) :
    IgnoresLatch fun s => withPort (s.portRead r) k := by
  intro s t b h
  obtain ⟨v, u, hr, rfl⟩ := withPort_next h
  have hr' : (s.setIl b).portRead r = .ok (v, u.setIl b) := by
    rw [State.portRead_setIl, hr]
    rfl
  simp only [hr', withPort, hk]

theorem portWrite_ignoresLatch (r : BitVec 3) {value : State → Nibble}
    (hv : ∀ s b, value (s.setIl b) = value s) : IgnoresLatch fun s => s.portWrite r (value s) := by
  intro s t b h
  obtain ⟨p, hp, rfl⟩ := State.portWrite_next h
  simp only [hv]
  exact State.portWrite_of_ok (s := s.setIl b) hp

theorem memWrite_ignoresLatch {value : State → Nibble} (hv : ∀ s b, value (s.setIl b) = value s) :
    IgnoresLatch fun s => s.memWrite s.ea (value s) := by
  intro s t b h
  obtain ⟨hp, rfl⟩ := State.memWrite_next h
  simp only [hv]
  exact State.memWrite_populated (s := s.setIl b) _ hp

theorem accArith_ignoresLatch {f : State → Nibble → Nibble × Bool} (hf : ∀ s b, f (s.setIl b) = f s) :
    IgnoresLatch fun s => accArith (f s) s := by
  intro s t b h
  cases h
  have hea : (s.setIl b).ea = s.ea := rfl
  simp only [accArith, hf, hea, State.memRead_setIl]
  rfl

theorem accLogic_ignoresLatch {f : State → Nibble → Nibble} (hf : ∀ s b, f (s.setIl b) = f s) :
    IgnoresLatch fun s => accLogic (f s) s := by
  intro s t b h
  cases h
  have hea : (s.setIl b).ea = s.ea := rfl
  simp only [accLogic, hf, hea, State.memRead_setIl]
  rfl

theorem memArith_ignoresLatch {f : State → Nibble → Nibble × Bool} (hf : ∀ s b, f (s.setIl b) = f s) :
    IgnoresLatch fun s => memArith (f s) s := by
  intro s t b h
  obtain ⟨hp, rfl⟩ := memArith_next h
  simp only [hf, State.setZC_eq]
  exact memArith_populated (s := s.setIl b) hp (f s)

theorem memLogic_ignoresLatch {f : State → Nibble → Nibble} (hf : ∀ s b, f (s.setIl b) = f s) :
    IgnoresLatch fun s => memLogic (f s) s := by
  intro s t b h
  obtain ⟨hp, rfl⟩ := memLogic_next h
  simp only [hf, State.setZ_eq]
  exact memLogic_populated (s := s.setIl b) hp (f s)

theorem execCmm_ignoresLatch : IgnoresLatch execCmm := by
  intro s t b h
  have h' : exec .cmm s = .next t := h
  rw [exec_cmm_eq, State.setZ_eq] at h'
  obtain ⟨hp, rfl⟩ := State.memWrite_next h'
  exact exec_cmm_populated (s := s.setIl b) hp

theorem execLam_ignoresLatch : IgnoresLatch execLam := by
  intro s t b h
  cases h
  have hea : (s.setIl b).ea = s.ea := rfl
  simp only [execLam, hea, State.memRead_setIl]
  rfl

theorem execLtm_ignoresLatch : IgnoresLatch execLtm := by
  intro s t b h
  cases h
  have hea : (s.setIl b).ea = s.ea := rfl
  simp only [execLtm, hea, State.memRead_setIl]
  rfl

theorem branchIf_ignoresLatch (ap : ProgAddr) {cond : State → Bool}
    (hc : ∀ s b, cond (s.setIl b) = cond s) : IgnoresLatch fun s => .next (s.branchIf (cond s) ap) := by
  intro s t b h
  cases h
  simp only [hc]
  cases cond s <;> rfl

theorem execRtn_ignoresLatch : IgnoresLatch execRtn := by
  intro s t b h
  rw [execRtn] at h
  split at h
  · cases h
  next hstack =>
    cases h
    exact if_neg hstack

/-! ### Instructions -/

/-- R203: an instruction that cannot write H ignores the latch. -/
theorem exec_ignoresLatch {i : Instr} (hi : ∀ g, writesOf i ≠ .statusBit g) (hlsm : writesOf i ≠ .status) :
    IgnoresLatch (exec i) := by
  cases i
  case sbs g | cbs g | ibs g => exact absurd rfl (hi g)
  case lsm => exact absurd rfl hlsm
  case lar r => exact withPort_ignoresLatch r fun _ _ _ => rfl
  case ltr r => exact withPort_ignoresLatch r fun _ _ _ => rfl
  case lam => exact execLam_ignoresLatch
  case ltm => exact execLtm_ignoresLatch
  case sar r => exact portWrite_ignoresLatch r (value := State.ac) fun _ _ => rfl
  case syr r => exact portWrite_ignoresLatch r (value := State.yr) fun _ _ => rfl
  case clr r => exact portWrite_ignoresLatch r (value := fun _ => 0) fun _ _ => rfl
  case sam => exact memWrite_ignoresLatch (value := State.ac) fun _ _ => rfl
  case ssm => exact memWrite_ignoresLatch (value := State.st) fun _ _ => rfl
  case ada => exact accArith_ignoresLatch (f := fun s m => addCarry m s.ac false) fun _ _ => rfl
  case aca => exact accArith_ignoresLatch (f := fun s m => addCarry m s.ac s.cFlag) fun _ _ => rfl
  case sua => exact accArith_ignoresLatch (f := fun s m => subBorrow m s.ac) fun _ _ => rfl
  case ica => exact accArith_ignoresLatch (f := fun _ m => addCarry m 1 false) fun _ _ => rfl
  case ora => exact accLogic_ignoresLatch (f := fun s m => m ||| s.ac) fun _ _ => rfl
  case eoa => exact accLogic_ignoresLatch (f := fun s m => m ^^^ s.ac) fun _ _ => rfl
  case adm => exact memArith_ignoresLatch (f := fun s m => addCarry m s.ac false) fun _ _ => rfl
  case acm => exact memArith_ignoresLatch (f := fun s m => addCarry m s.ac s.cFlag) fun _ _ => rfl
  case sum => exact memArith_ignoresLatch (f := fun s m => subBorrow m s.ac) fun _ _ => rfl
  case icm => exact memArith_ignoresLatch (f := fun _ m => addCarry m 1 false) fun _ _ => rfl
  case orm => exact memLogic_ignoresLatch (f := fun s m => m ||| s.ac) fun _ _ => rfl
  case eom => exact memLogic_ignoresLatch (f := fun s m => m ^^^ s.ac) fun _ _ => rfl
  case tsm => exact memLogic_ignoresLatch (f := fun _ m => m) fun _ _ => rfl
  case cmm => exact execCmm_ignoresLatch
  case jmp ap => exact branchIf_ignoresLatch ap (cond := fun _ => true) fun _ _ => rfl
  case bcs ap => exact branchIf_ignoresLatch ap (cond := State.zFlag) fun _ _ => rfl
  case bcc ap => exact branchIf_ignoresLatch ap (cond := fun s => !s.zFlag) fun _ _ => rfl
  case rtn => exact execRtn_ignoresLatch
  all_goals
    intro s t b h
    cases h
    rfl

/-- R210: a status write keeps a latched request exactly where no hold is then on. -/
theorem State.writeStatus_latched (s : State) (v : Nibble) :
    ((s.setIl true).writeStatus v).setEyr false =
      ((s.writeStatus v).setEyr false).setIl (!((s.writeStatus v).setEyr false).holding) := by
  have hhold : ((s.writeStatus v).setEyr false).holding = (holdByHFlag s.cfg.typ && v.getLsbD 0) := by
    rw [State.writeStatus_eq]
    rfl
  rw [hhold, State.writeStatus_eq, State.writeStatus_eq, State.setIl_cfg]
  cases holdByHFlag s.cfg.typ && v.getLsbD 0 <;> rfl

/-- R203, R210: with a request latched an instruction does what it does without it, and keeps the request
unless it begins a hold. -/
theorem exec_latched {i : Instr} {s t : State} (hh : s.holding = false) (h : exec i s = .next t) :
    exec i (s.setIl true) = .next (t.setIl (!t.holding)) := by
  have other (hi : ∀ g, writesOf i ≠ .statusBit g) (hlsm : writesOf i ≠ .status) :
      exec i (s.setIl true) = .next (t.setIl (!t.holding)) := by
    have hkept : t.holding = false := by
      rw [(exec_after h).holding_eq, hh]
      cases hw : writesOf i
      case status => exact absurd hw hlsm
      case statusBit g => exact absurd hw (hi g)
      all_goals rfl
    rw [hkept]
    exact exec_ignoresLatch hi hlsm s t true h
  cases i
  case sbs g | cbs g | ibs g =>
    cases h
    exact congrArg Host.Outcome.next (s.writeStatus_latched _)
  case lsm =>
    cases h
    have hread := s.memRead_setIl s.ea true
    exact (execLsm_of_read (s := s.setIl true) hread).trans
      (congrArg Host.Outcome.next (State.writeStatus_latched _ _))
  all_goals exact other nofun nofun

/-! ### The fetch -/

theorem State.fetch_setIl {s u : State} {i : Instr} (b : Bool) (h : s.fetch = .ok (i, u)) :
    (s.setIl b).fetch = .ok (i, u.setIl b) := by
  obtain ⟨b0, hread, ⟨hlen, ⟨r, hdec⟩, rfl⟩ | ⟨b1, hlen, hread', ⟨r, hdec⟩, rfl⟩⟩ := State.fetch_ok h
  · exact State.fetch_one (s := s.setIl b) hread hlen hdec
  · exact State.fetch_two (s := s.setIl b) hread hlen hread' hdec

end Sys2Proof.Machine

namespace Sys2Proof

open Machine Safety

/-- Settles O22: the core runs the same instruction with the latch set, because EYR or FSTK keeps the
interrupt from being accepted. -/
theorem disabledInterruptWaits : Obligations.DisabledInterruptWaits := by
  intro s t hs hh hdisabled h
  obtain ⟨hv, -⟩ := step_next h
  have hint (b : Bool) : ((s.setIl b).il && (s.setIl b).intEnabled) = false := by
    rcases hdisabled with he | he <;> simp [State.intEnabled, he]
  have hrun (b : Bool) : CoreRuns (s.setIl b) := ⟨hv, hs, hh, hint b⟩
  have hcore : coreStep ((s.setIl false).setSchedule s.schedule.tail) = .next t :=
    (step_of_coreRuns (hrun false)).symm.trans h
  rcases coreStep_next hcore with ⟨hhold, -⟩ | ⟨-, hil, -, -⟩ | ⟨-, i, u, hfetch, hexec⟩
  · exact absurd (hh.symm.trans hhold) Bool.false_ne_true
  · cases hil
  · have hu : u.holding = false := by
      obtain ⟨b, p, rfl⟩ := State.fetch_frame hfetch
      exact hh
    exact (step_of_fetch_ok (hrun true) (State.fetch_setIl true hfetch)).trans (exec_latched hu hexec)

end Sys2Proof
end
